-- ==== Sys2Proof/Word.lean ====
section
/-! DEFINITION. The word types of the CHIP-8 core (spec 00_scope.md R5, R10): bytes, 16-bit words and the
12-bit addresses an instruction carries. Every architectural value is unsigned (R10). -/

namespace Sys2Proof

/-- An 8-bit value: a general register, a memory cell, a timer (R5). -/
abbrev Byte := BitVec 8

/-- A 16-bit value: an instruction word, `pc`, `I`, a stack entry (R5). -/
abbrev Word := BitVec 16

/-- The 12-bit address field `nnn` of an instruction (R18). -/
abbrev Addr12 := BitVec 12

/-- A general register's number, 0 to 15: every value of the 4-bit field is legal (R20, R73). -/
abbrev RegIdx := Fin 16

/-- A key's number, 0 to 15 (R35, R192). -/
abbrev KeyIdx := Fin 16

end Sys2Proof
end

