-- ==== Sys2Proof/Syntax.lean ====
section
/-! DEFINITION. The 35 instructions of spec 30_encoding.md R82 as data, one constructor per row of spec/opcode_table.json,
each with the operand fields its format uses (R72, R78). -/

namespace Sys2Proof

/-- One case per row of R82, in the table's order; `x` and `y` are register numbers, `kk` an immediate byte, `nnn` a 12-bit
address, `n` a row count 0 to 15. -/
inductive Instr where
  /-- row 1, 00E0 -/
  | cls
  /-- row 2, 00EE -/
  | ret
  /-- row 3, 0nnn, every word of family 0 but 00E0 and 00EE -/
  | sys (nnn : Addr12)
  /-- row 4, 1nnn -/
  | jp (nnn : Addr12)
  /-- row 5, 2nnn -/
  | call (nnn : Addr12)
  /-- row 6, 3xkk: SE Vx, kk -/
  | seImm (x : RegIdx) (kk : Byte)
  /-- row 7, 4xkk: SNE Vx, kk -/
  | sneImm (x : RegIdx) (kk : Byte)
  /-- row 8, 5xy0: SE Vx, Vy -/
  | seReg (x y : RegIdx)
  /-- row 9, 6xkk: LD Vx, kk -/
  | ldImm (x : RegIdx) (kk : Byte)
  /-- row 10, 7xkk: ADD Vx, kk -/
  | addImm (x : RegIdx) (kk : Byte)
  /-- row 11, 8xy0: LD Vx, Vy -/
  | ldReg (x y : RegIdx)
  /-- row 12, 8xy1 -/
  | or (x y : RegIdx)
  /-- row 13, 8xy2 -/
  | and (x y : RegIdx)
  /-- row 14, 8xy3 -/
  | xor (x y : RegIdx)
  /-- row 15, 8xy4: ADD Vx, Vy -/
  | addReg (x y : RegIdx)
  /-- row 16, 8xy5 -/
  | sub (x y : RegIdx)
  /-- row 17, 8xy6 -/
  | shr (x y : RegIdx)
  /-- row 18, 8xy7 -/
  | subn (x y : RegIdx)
  /-- row 19, 8xyE -/
  | shl (x y : RegIdx)
  /-- row 20, 9xy0: SNE Vx, Vy -/
  | sneReg (x y : RegIdx)
  /-- row 21, Annn -/
  | lda (nnn : Addr12)
  /-- row 22, Bnnn -/
  | jpv (nnn : Addr12)
  /-- row 23, Cxkk -/
  | rnd (x : RegIdx) (kk : Byte)
  /-- row 24, Dxyn -/
  | drw (x y : RegIdx) (n : Fin 16)
  /-- row 25, Ex9E -/
  | skp (x : RegIdx)
  /-- row 26, ExA1 -/
  | sknp (x : RegIdx)
  /-- row 27, Fx07 -/
  | ldt (x : RegIdx)
  /-- row 28, Fx0A -/
  | ldk (x : RegIdx)
  /-- row 29, Fx15 -/
  | ldf (x : RegIdx)
  /-- row 30, Fx18 -/
  | lds (x : RegIdx)
  /-- row 31, Fx1E -/
  | addi (x : RegIdx)
  /-- row 32, Fx29 -/
  | ldspr (x : RegIdx)
  /-- row 33, Fx33 -/
  | ldb (x : RegIdx)
  /-- row 34, Fx55 -/
  | ldi (x : RegIdx)
  /-- row 35, Fx65 -/
  | ldj (x : RegIdx)
deriving DecidableEq, Repr

end Sys2Proof
end

