-- ==== Sys2Proof/WellFormed.lean ====
section
/-! DEFINITION. Which terms of `Instr` are instructions. Every operand value is legal (spec 30_encoding.md R73) but two: the
words 00E0 and 00EE are CLS and RET, so no SYS carries those addresses (R75, R76, R82 row 3). -/

namespace Sys2Proof

/-- `SYS 0x0E0` and `SYS 0x0EE` are no instructions; every other term is one (R76). -/
def Instr.wellFormed : Instr → Bool
  | .sys nnn => nnn != 0x0E0 && nnn != 0x0EE
  | .cls | .ret => true
  | .jp _ | .call _ | .lda _ | .jpv _ => true
  | .seImm _ _ | .sneImm _ _ | .ldImm _ _ | .addImm _ _ | .rnd _ _ => true
  | .seReg _ _ | .sneReg _ _ | .ldReg _ _ | .or _ _ | .and _ _ | .xor _ _ | .addReg _ _ => true
  | .sub _ _ | .shr _ _ | .subn _ _ | .shl _ _ => true
  | .drw _ _ _ => true
  | .skp _ | .sknp _ | .ldt _ | .ldk _ | .ldf _ | .lds _ | .addi _ | .ldspr _ | .ldb _ | .ldi _ | .ldj _ => true

end Sys2Proof
end

