-- ==== Sys2Proof/Decode.lean ====
section
/-! DEFINITION. The decoder of spec 30_encoding.md R76, total on words and on bytes and rejecting by name, and after it the
encoder, written from the patterns of R82. The decoder reads no state (R74). The function nibbles and bytes are the
canonical CHIP-8 values (R76, log 17). -/

namespace Sys2Proof

/-- Why no instruction is read. -/
inductive DecodeError where
  /-- the word matches no pattern (R77, R79) -/
  | unknownOpcode (w : Word)
  /-- fewer than two bytes were given (every instruction is one 16-bit word, R70) -/
  | truncated
deriving DecidableEq, Repr

/-- Four bits of a word, from bit `lo` up, as a number 0 to 15. -/
def nibbleAt (w : Word) (lo : Nat) : Fin 16 := Fin.ofNat 16 (w.toNat >>> lo)

/-- `op = w[15:12]` (R71). -/
def opField (w : Word) : Fin 16 := nibbleAt w 12

/-- `x = w[11:8]` (R71). -/
def xField (w : Word) : RegIdx := nibbleAt w 8

/-- `y = w[7:4]` (R71). -/
def yField (w : Word) : RegIdx := nibbleAt w 4

/-- `n = w[3:0]` (R71). -/
def nField (w : Word) : Fin 16 := nibbleAt w 0

/-- `kk = w[7:0]` (R71). -/
def kkField (w : Word) : Byte := w.setWidth 8

/-- `nnn = w[11:0]` (R71). -/
def nnnField (w : Word) : Addr12 := w.setWidth 12

/-- Family 0: the whole words 00E0 and 00EE, else SYS (R75, R76). -/
def decodeFamily0 (w : Word) : Except DecodeError Instr :=
  if w = 0x00E0 then .ok .cls
  else if w = 0x00EE then .ok .ret
  else .ok (.sys (nnnField w))

/-- Family 8, by the low nibble (R75, R76). -/
def decodeFamily8 (w : Word) : Except DecodeError Instr :=
  match (nField w).val with
  | 0x0 => .ok (.ldReg (xField w) (yField w))
  | 0x1 => .ok (.or (xField w) (yField w))
  | 0x2 => .ok (.and (xField w) (yField w))
  | 0x3 => .ok (.xor (xField w) (yField w))
  | 0x4 => .ok (.addReg (xField w) (yField w))
  | 0x5 => .ok (.sub (xField w) (yField w))
  | 0x6 => .ok (.shr (xField w) (yField w))
  | 0x7 => .ok (.subn (xField w) (yField w))
  | 0xE => .ok (.shl (xField w) (yField w))
  | _ => .error (.unknownOpcode w)

/-- Family E, by the low byte (R75, R76). -/
def decodeFamilyE (w : Word) : Except DecodeError Instr :=
  if kkField w = 0x9E then .ok (.skp (xField w))
  else if kkField w = 0xA1 then .ok (.sknp (xField w))
  else .error (.unknownOpcode w)

/-- Family F, by the low byte (R75, R76). -/
def decodeFamilyF (w : Word) : Except DecodeError Instr :=
  if kkField w = 0x07 then .ok (.ldt (xField w))
  else if kkField w = 0x0A then .ok (.ldk (xField w))
  else if kkField w = 0x15 then .ok (.ldf (xField w))
  else if kkField w = 0x18 then .ok (.lds (xField w))
  else if kkField w = 0x1E then .ok (.addi (xField w))
  else if kkField w = 0x29 then .ok (.ldspr (xField w))
  else if kkField w = 0x33 then .ok (.ldb (xField w))
  else if kkField w = 0x55 then .ok (.ldi (xField w))
  else if kkField w = 0x65 then .ok (.ldj (xField w))
  else .error (.unknownOpcode w)

/-- The decoder (R76): by the top nibble, then by the low bits of families 0, 5, 8, 9, E and F. -/
def decode (w : Word) : Except DecodeError Instr :=
  match (opField w).val with
  | 0x0 => decodeFamily0 w
  | 0x1 => .ok (.jp (nnnField w))
  | 0x2 => .ok (.call (nnnField w))
  | 0x3 => .ok (.seImm (xField w) (kkField w))
  | 0x4 => .ok (.sneImm (xField w) (kkField w))
  | 0x5 => if nField w = 0 then .ok (.seReg (xField w) (yField w)) else .error (.unknownOpcode w)
  | 0x6 => .ok (.ldImm (xField w) (kkField w))
  | 0x7 => .ok (.addImm (xField w) (kkField w))
  | 0x8 => decodeFamily8 w
  | 0x9 => if nField w = 0 then .ok (.sneReg (xField w) (yField w)) else .error (.unknownOpcode w)
  | 0xA => .ok (.lda (nnnField w))
  | 0xB => .ok (.jpv (nnnField w))
  | 0xC => .ok (.rnd (xField w) (kkField w))
  | 0xD => .ok (.drw (xField w) (yField w) (nField w))
  | 0xE => decodeFamilyE w
  | _ => decodeFamilyF w

/-- The big-endian word of two bytes, the high one first (20_memory.md R51). -/
def wordOfBytes (hi lo : Byte) : Word := hi ++ lo

/-- The two bytes of a word as memory holds them, the high one first (R51). -/
def bytesOfWord (w : Word) : List Byte := [(w >>> 8).setWidth 8, w.setWidth 8]

/-- The decoder on bytes: the instruction of the first two bytes and the bytes left over. -/
def decodeBytes : List Byte → Except DecodeError (Instr × List Byte)
  | hi :: lo :: rest =>
    match decode (wordOfBytes hi lo) with
    | .ok i => .ok (i, rest)
    | .error e => .error e
  | _ => .error .truncated

/-- What the host asks of the decoder: the word numbered as spec/opcode_table.json numbers it (the bits from `nbits` up are
0), laid out in big-endian bytes and given to `decodeBytes`. -/
def decodeTableWord (nbits w : Nat) : Option Instr :=
  match decodeBytes (bytesOfWord (BitVec.ofNat 16 (w % 2 ^ nbits))) with
  | .ok (i, _) => some i
  | .error _ => none

/-! ## The encoder -/

/-- Format NNN (R72): the family nibble and a 12-bit address. -/
def packNNN (op : Nat) (nnn : Addr12) : Word := BitVec.ofNat 16 (op * 0x1000 + nnn.toNat)

/-- Format XKK (R72): the family nibble, a register, an immediate byte. -/
def packXKK (op : Nat) (x : RegIdx) (kk : Byte) : Word := BitVec.ofNat 16 (op * 0x1000 + x.val * 0x100 + kk.toNat)

/-- Formats XY and XYN (R72): the family nibble, two registers, a low nibble (a function value or the row count). -/
def packXYN (op : Nat) (x y : RegIdx) (n : Fin 16) : Word :=
  BitVec.ofNat 16 (op * 0x1000 + x.val * 0x100 + y.val * 0x10 + n.val)

/-- The word of an instruction, from the patterns of R82. -/
def encode : Instr → Word
  | .cls => 0x00E0
  | .ret => 0x00EE
  | .sys nnn => packNNN 0x0 nnn
  | .jp nnn => packNNN 0x1 nnn
  | .call nnn => packNNN 0x2 nnn
  | .seImm x kk => packXKK 0x3 x kk
  | .sneImm x kk => packXKK 0x4 x kk
  | .seReg x y => packXYN 0x5 x y 0x0
  | .ldImm x kk => packXKK 0x6 x kk
  | .addImm x kk => packXKK 0x7 x kk
  | .ldReg x y => packXYN 0x8 x y 0x0
  | .or x y => packXYN 0x8 x y 0x1
  | .and x y => packXYN 0x8 x y 0x2
  | .xor x y => packXYN 0x8 x y 0x3
  | .addReg x y => packXYN 0x8 x y 0x4
  | .sub x y => packXYN 0x8 x y 0x5
  | .shr x y => packXYN 0x8 x y 0x6
  | .subn x y => packXYN 0x8 x y 0x7
  | .shl x y => packXYN 0x8 x y 0xE
  | .sneReg x y => packXYN 0x9 x y 0x0
  | .lda nnn => packNNN 0xA nnn
  | .jpv nnn => packNNN 0xB nnn
  | .rnd x kk => packXKK 0xC x kk
  | .drw x y n => packXYN 0xD x y n
  | .skp x => packXKK 0xE x 0x9E
  | .sknp x => packXKK 0xE x 0xA1
  | .ldt x => packXKK 0xF x 0x07
  | .ldk x => packXKK 0xF x 0x0A
  | .ldf x => packXKK 0xF x 0x15
  | .lds x => packXKK 0xF x 0x18
  | .addi x => packXKK 0xF x 0x1E
  | .ldspr x => packXKK 0xF x 0x29
  | .ldb x => packXKK 0xF x 0x33
  | .ldi x => packXKK 0xF x 0x55
  | .ldj x => packXKK 0xF x 0x65

/-- The two bytes of an instruction as memory holds them (R51). -/
def encodeBytes (i : Instr) : List Byte := bytesOfWord (encode i)

end Sys2Proof
end

