-- ==== Sys2Proof/Config.lean ====
section
/-! DEFINITION. What is fixed for one machine: the sizes of spec 00_scope.md R5, the parameters (the Settings object of
10_state.md R38, `SYS_FATAL`, the clock periods), the steps the outer loop can deliver, and the values the spec leaves free, as constants with no body. -/

namespace Sys2Proof.Config

/-- `MEM_SIZE`: memory is addresses 0x000 to 0xFFF (R5, R50). -/
abbrev memSize : Nat := 4096

/-- `PROG_BASE`: where the program is loaded and where `pc` starts (R5, R54). -/
abbrev progBase : Nat := 0x200

/-- `STACK_DEPTH` (R5, R33). -/
abbrev stackDepth : Nat := 16

/-- Display columns (R5, R170). -/
abbrev width : Nat := 64

/-- Display rows (R5, R170). -/
abbrev height : Nat := 32

/-- `RandomByte()` (R14): the n-th draw. No body: any value 0 to 255, under no law (log 14). -/
opaque randomByte : Nat → Byte

/-- 93_implementation_defined.md U5: whether, in the n-th faulting block transfer, the destination numbered `d` (a memory
address, or a register's number) holds the value written (true) or its old value (false). No body: either (log 13). -/
opaque partialWriteLands : Nat → Nat → Bool

/-- Which of the three clocks (R229). -/
inductive ClockId where
  | cpu | delay | sound
deriving DecidableEq, Repr, Inhabited

/-- One step the outer loop can deliver (R15, R192, R232). -/
inductive HostEvent where
  /-- a clock fires: one CPU cycle, one delay tick or one sound tick (R229) -/
  | fire (c : ClockId)
  /-- the outer loop polls a clock at the time `now`; the clock fires if its period has elapsed (R227) -/
  | poll (c : ClockId) (now : Nat)
  /-- `KeyDown(k)` (R190) -/
  | keyDown (k : KeyIdx)
  /-- `KeyUp(k)` (R191) -/
  | keyUp (k : KeyIdx)
  /-- `None`: a poll of the input with no event (R192) -/
  | noEvent
  /-- the presentation flush: `take_dirty` and a read of the pixels (R184, R186) -/
  | flush
  /-- `Quit`: the host stops calling the core (R233) -/
  | quit
deriving DecidableEq, Repr, Inhabited

/-- 60_exceptions.md R230, 93_implementation_defined.md U9: the n-th step the outer loop delivers by its own choice. No body:
any step, in any order, with any number of ticks and events between two cycles, for ever (log 9). -/
opaque outerLoopEvent : Nat → HostEvent

/-- The Settings object `S` (10_state.md R38): five Boolean quirk flags, read-only for the run. -/
structure Settings where
  /-- after LDI and LDJ, `I` is advanced past the transferred range -/
  incrementIRegister : Bool
  /-- SHR and SHL shift `V[x]` itself, not `V[y]` -/
  shiftVxIgnoreVy : Bool
  /-- ADDI also writes VF with the 16-bit carry -/
  setVfWhenOverflow : Bool
  /-- sprite rows past the bottom edge wrap to the top -/
  verticalWrap : Bool
  /-- the tone is suppressed -/
  mute : Bool
deriving DecidableEq, Repr

/-- The documented defaults of 92_eei_decisions.md D9 (log 2). -/
def Settings.documented : Settings :=
  { incrementIRegister := true, shiftVxIgnoreVy := false, setVfWhenOverflow := false,
    verticalWrap := false, mute := false }

/-- The parameters of the machine (R42), fixed before the run: `S`, `SYS_FATAL` (R8), the periods of the three clocks and
the instant each of them is constructed at (R7, R226), in units of a 60000th of a second (log 8). The spec gives each clock
its own construction instant (R43, D11) and does not say that they coincide, so they are three parameters. -/
structure Params where
  settings : Settings
  sysFatal : Bool
  cpuPeriod : Nat
  delayPeriod : Nat
  soundPeriod : Nat
  cpuConstructedAt : Nat
  delayConstructedAt : Nat
  soundConstructedAt : Nat
deriving DecidableEq, Repr

/-- The parameters of `State.reset` (log 2, log 8): D9's Settings, `SYS_FATAL = false`, 60 Hz timers (D10). `CPU_HZ` has no
default in the spec; the 100 units here are the model's DESIGN CHOICE: no statement rests on more than their being positive
(R7). That the three clocks are constructed at one instant, 0, is the model's DESIGN CHOICE for `State.reset` (log 8). -/
def Params.documented : Params :=
  { settings := Settings.documented, sysFatal := false, cpuPeriod := 100, delayPeriod := 1000,
    soundPeriod := 1000, cpuConstructedAt := 0, delayConstructedAt := 0, soundConstructedAt := 0 }

end Sys2Proof.Config
end

