-- ==== Sys2Proof/Machine/State.lean ====
section
/-! DEFINITION. The machine's state as plain data (spec 10_state.md), the faults of 60_exceptions.md R215, the
reasons a step can stop, and the state right after reset (R43). -/

namespace Sys2Proof.Machine

open Sys2Proof.Config (Settings Params HostEvent)

/-- Memory as the bytes that differ from their reset contents, addresses strictly rising (the canonical form is `Memory.wf`
of Ops.lean). What an unlisted address reads as is `Memory.resetByte`. -/
abbrev Memory := List Host.Cell

/-- The keyboard wait latch (R36). -/
inductive Wait where
  /-- no wait is armed -/
  | none
  /-- armed, no key captured yet -/
  | armed
  /-- armed, and key `k` captured but not yet consumed -/
  | captured (k : KeyIdx)
deriving DecidableEq, Repr

/-- A fault of R215 with the info it records. -/
inductive CoreFault where
  /-- code 1: `load` of a program that does not fit; the length -/
  | loadTooLarge (len : Nat)
  /-- code 2: `load` of a byte source that cannot be read -/
  | loadUnreadable
  /-- code 3: decode, every word of R79; the word -/
  | unknownOpcode (w : Word)
  /-- code 4: fetch, LDB, LDI, LDJ, DRW at an address 4096 or above; the first such address -/
  | memoryOutOfBounds (a : Nat)
  /-- code 5: CALL with 16 return addresses on the stack; the CALL's address -/
  | stackOverflow (addr : Word)
  /-- code 6: RET on an empty stack; the RET's address -/
  | stackUnderflow (addr : Word)
  /-- code 7: SKP, SKNP with `V[x]` above 15; the value -/
  | keyIndexOutOfRange (v : Byte)
  /-- code 8: SYS when `SYS_FATAL` is true; `nnn` -/
  | sysUnsupported (nnn : Addr12)
deriving DecidableEq, Repr

/-- A clock (R39): its period, fixed at construction, and the instant of its last fire. Time is in whole units (log 8). -/
structure Clock where
  period : Nat
  last : Nat
deriving DecidableEq, Repr

/-- Why a step answers `.fault`. -/
inductive Fault where
  /-- `step`, from a state whose fault latch is set: the core has stopped with this fault (R40, R216). The spec's own stop: safe. -/
  | stopped (f : CoreFault)
  /-- RET, in a state with `sp` above 16, which no run reaches (R29): there is no such stack entry. Safe: it stops where the
  spec gives no effect (log 16). -/
  | stackPointerBeyondStack
deriving DecidableEq, Repr

/-- Why a step answers `.refused`. -/
inductive Refusal where
  /-- raised by an arm of `exec` whose instruction has no meaning yet; no arm is left in that case. Safe. -/
  | notModelled (mnemonic : String)
deriving DecidableEq, Repr

/-- Everything the spec gives the machine (10_state.md), and three fields of the model's own (`freeCount`,
`schedule`, `eventCount`). -/
structure State where
  /-- `V[0]`..`V[15]`; `V[15]` is VF (R20, R21) -/
  v : Vector Byte 16
  /-- the index register `I` (R28) -/
  i : Word
  /-- the program counter (R23) -/
  pc : Word
  /-- the number of return addresses on the stack (R29) -/
  sp : Byte
  /-- the call stack (R33) -/
  stack : Vector Word 16
  /-- the delay timer `DT` (R30) -/
  dt : Byte
  /-- the sound timer `ST` (R31) -/
  st : Byte
  /-- memory (R34), the bytes that differ from their reset contents -/
  mem : Memory
  /-- `Key[k]`, true while key k is held (R35) -/
  key : Vector Bool 16
  /-- the wait latch (R36) -/
  wait : Wait
  /-- `Pix[x][y]`, indexed column first, true meaning on (R37) -/
  pix : Vector (Vector Bool 32) 64
  /-- the display's dirty flag (R37) -/
  dirty : Bool
  /-- the last boolean sent to the audio collaborator (R224) -/
  tone : Bool
  /-- the fault latch (R40) -/
  fault : Option CoreFault
  /-- the Settings object `S`: a parameter, which no step changes (R38, log 1) -/
  settings : Settings
  /-- `SYS_FATAL`: a parameter, which no step changes (R8, log 1) -/
  sysFatal : Bool
  /-- the three clocks (R39, R229) -/
  cpuClock : Clock
  delayClock : Clock
  soundClock : Clock
  /-- MODEL: how many free values have been drawn (log 13, log 14) -/
  freeCount : Nat
  /-- MODEL: steps the outer loop delivers first, oldest first; when none is listed its own choice follows (R230, log 9) -/
  schedule : List HostEvent
  /-- MODEL: how many steps the outer loop has delivered by its own choice, `Config.outerLoopEvent` (R230, log 9) -/
  eventCount : Nat
deriving DecidableEq, Repr

/-- The state after construction with parameters `p` and an empty program (R43, R240): log 3 to log 8. Each clock
starts at its own construction instant, which `p` gives; that they coincide is settled only for `State.reset` (log 8). -/
def State.constructed (p : Params) : State :=
  { v := Vector.replicate 16 0
    i := 0
    pc := 0x200
    sp := 0
    stack := Vector.replicate 16 0
    dt := 0
    st := 0
    mem := []
    key := Vector.replicate 16 false
    wait := .none
    pix := Vector.replicate 64 (Vector.replicate 32 false)
    dirty := true
    tone := false
    fault := none
    settings := p.settings
    sysFatal := p.sysFatal
    cpuClock := { period := p.cpuPeriod, last := p.cpuConstructedAt }
    delayClock := { period := p.delayPeriod, last := p.delayConstructedAt }
    soundClock := { period := p.soundPeriod, last := p.soundConstructedAt }
    freeCount := 0
    schedule := []
    eventCount := 0 }

/-- The machine right after reset, with the documented parameters and nothing placed in memory (R43; log 2 to log 9). -/
def State.reset : State := State.constructed Params.documented

/-! ## The updates: every change of a state goes through these -/

/-- `V` replaced whole. -/
def State.withV (s : State) (a : Vector Byte 16) : State := { s with v := a }
/-- `I <- a` (R11). -/
def State.withI (s : State) (a : Word) : State := { s with i := a }
/-- `pc <- a` (R11). -/
def State.withPc (s : State) (a : Word) : State := { s with pc := a }
/-- `sp <- a` (R11). -/
def State.withSp (s : State) (a : Byte) : State := { s with sp := a }
/-- The call stack replaced whole. -/
def State.withStack (s : State) (a : Vector Word 16) : State := { s with stack := a }
/-- `DT <- a` (R11). -/
def State.withDt (s : State) (a : Byte) : State := { s with dt := a }
/-- `ST <- a` (R11). -/
def State.withSt (s : State) (a : Byte) : State := { s with st := a }
/-- Memory replaced whole. -/
def State.withMem (s : State) (a : Memory) : State := { s with mem := a }
/-- The key table replaced whole. -/
def State.withKey (s : State) (a : Vector Bool 16) : State := { s with key := a }
/-- `Wait <- a`. -/
def State.withWait (s : State) (a : Wait) : State := { s with wait := a }
/-- The pixels replaced whole. -/
def State.withPix (s : State) (a : Vector (Vector Bool 32) 64) : State := { s with pix := a }
/-- `Dirty <- a`. -/
def State.withDirty (s : State) (a : Bool) : State := { s with dirty := a }
/-- The tone boolean sent to the audio collaborator. -/
def State.withTone (s : State) (a : Bool) : State := { s with tone := a }
/-- The fault latch. -/
def State.withFault (s : State) (a : Option CoreFault) : State := { s with fault := a }
/-- The CPU clock. -/
def State.withCpuClock (s : State) (a : Clock) : State := { s with cpuClock := a }
/-- The delay clock. -/
def State.withDelayClock (s : State) (a : Clock) : State := { s with delayClock := a }
/-- The sound clock. -/
def State.withSoundClock (s : State) (a : Clock) : State := { s with soundClock := a }
/-- The count of free values drawn. -/
def State.withFreeCount (s : State) (a : Nat) : State := { s with freeCount := a }
/-- The steps to be delivered first. -/
def State.withSchedule (s : State) (a : List HostEvent) : State := { s with schedule := a }
/-- The count of steps delivered by the outer loop's own choice. -/
def State.withEventCount (s : State) (a : Nat) : State := { s with eventCount := a }

end Sys2Proof.Machine
end

