-- ==== Sys2Proof/Machine/Ops.lean ====
section
/-! DEFINITION. The named operations every meaning is built from: memory (spec 20_memory.md), registers and pc (10_state.md),
raising a fault (60_exceptions.md R216, R219), and the block transfers of LDB, LDI and LDJ. -/

namespace Sys2Proof.Machine

open Sys2Proof.Config (memSize)

/-! ## Memory -/

/-- The five bytes of the glyph for the digit `d` (R59). Glyph 0 is the source's; the others are the canonical CHIP-8 font
(PRESUMED, the spec's own mark G3; log 5). -/
def glyph (d : Fin 16) : List Byte :=
  match d.val with
  | 0x0 => [0xF0, 0x90, 0x90, 0x90, 0xF0]
  | 0x1 => [0x20, 0x60, 0x20, 0x20, 0x70]
  | 0x2 => [0xF0, 0x10, 0xF0, 0x80, 0xF0]
  | 0x3 => [0xF0, 0x10, 0xF0, 0x10, 0xF0]
  | 0x4 => [0x90, 0x90, 0xF0, 0x10, 0x10]
  | 0x5 => [0xF0, 0x80, 0xF0, 0x10, 0xF0]
  | 0x6 => [0xF0, 0x80, 0xF0, 0x90, 0xF0]
  | 0x7 => [0xF0, 0x10, 0x20, 0x40, 0x40]
  | 0x8 => [0xF0, 0x90, 0xF0, 0x90, 0xF0]
  | 0x9 => [0xF0, 0x90, 0xF0, 0x10, 0xF0]
  | 0xA => [0xF0, 0x90, 0xF0, 0x90, 0x90]
  | 0xB => [0xE0, 0x90, 0xE0, 0x90, 0xE0]
  | 0xC => [0xF0, 0x80, 0x80, 0x80, 0xF0]
  | 0xD => [0xE0, 0x90, 0x90, 0x90, 0xE0]
  | 0xE => [0xF0, 0x80, 0xF0, 0x80, 0xF0]
  | _ => [0xF0, 0x80, 0xF0, 0x80, 0x80]

/-- What address `a` holds at reset, and so what an unlisted address reads as (R43, R53, R59): glyph d at `d * 5`, then
0x00 (the spec's decision D7; log 5). -/
def Memory.resetByte (a : Nat) : Byte :=
  if a < 80 then (glyph (Fin.ofNat 16 (a / 5))).getD (a % 5) 0 else 0

/-- The listed byte at `a`, if one is listed. -/
def Memory.lookup (a : Nat) : Memory → Option Byte
  | [] => none
  | (k, b) :: m => if k = a then some b else Memory.lookup a m

/-- The byte at `a` (R61). -/
def Memory.read (m : Memory) (a : Nat) : Byte := (Memory.lookup a m).getD (Memory.resetByte a)

/-- Lists the byte `b` at `a`, keeping addresses rising. -/
def Memory.insert (a : Nat) (b : Byte) : Memory → Memory
  | [] => [(a, b)]
  | (k, c) :: m =>
    if a < k then (a, b) :: (k, c) :: m
    else if a = k then (a, b) :: m
    else (k, c) :: Memory.insert a b m

/-- Unlists the address `a`. -/
def Memory.erase (a : Nat) (m : Memory) : Memory := m.filter fun c => c.1 ≠ a

/-- The memory with the byte at `a` replaced by `b`, in canonical form. -/
def Memory.write (m : Memory) (a : Nat) (b : Byte) : Memory :=
  if b = Memory.resetByte a then Memory.erase a m else Memory.insert a b m

/-- The canonical form: addresses strictly rising, all of them in the space (R50), and none listed with the byte it holds
when unlisted. Two memories of this form that read alike are equal. -/
abbrev Memory.wf (m : Memory) : Prop :=
  m.Pairwise (fun c d => c.1 < d.1) ∧ ∀ c ∈ m, c.1 < memSize ∧ c.2 ≠ Memory.resetByte c.1

/-- `MemRead(a, 1)` (R55). -/
def memRead1 (m : Memory) (a : Nat) : Except CoreFault Byte :=
  if memSize ≤ a then .error (.memoryOutOfBounds a) else .ok (m.read a)

/-- `MemRead(a, 2)`: the big-endian word at `a`, checked byte by byte (R51, R55). -/
def memRead2 (m : Memory) (a : Nat) : Except CoreFault Word :=
  match memRead1 m a with
  | .error f => .error f
  | .ok hi =>
    match memRead1 m (a + 1) with
    | .error f => .error f
    | .ok lo => .ok (wordOfBytes hi lo)

/-- The first address of `base`, `base + 1`, …, `n` of them, that lies outside memory (R55, R62). Addresses do not wrap (R157). -/
def firstOutOfBounds (base : Nat) : Nat → Option Nat
  | 0 => none
  | n + 1 => if memSize ≤ base then some base else firstOutOfBounds (base + 1) n

/-- The `n` bytes from `base` up (R62). -/
def Memory.readBlock (m : Memory) (base : Nat) : Nat → List Byte
  | 0 => []
  | n + 1 => m.read base :: m.readBlock (base + 1) n

/-- Writes the bytes in order from `base` up (R62), those only whose address lies in memory and for which `lands` holds. -/
def Memory.writeWhere (lands : Nat → Bool) (base : Nat) : List Byte → Memory → Memory
  | [], m => m
  | b :: bs, m =>
    Memory.writeWhere lands (base + 1) bs (if base < memSize && lands base then m.write base b else m)

/-- Writes all the bytes in order from `base` up (R62). -/
def Memory.writeBlock (base : Nat) (bs : List Byte) (m : Memory) : Memory := Memory.writeWhere (fun _ => true) base bs m

/-! ## Registers -/

/-- `V[x]` (R11, R20). -/
def State.reg (s : State) (x : RegIdx) : Byte := s.v[x]

/-- `V[x] <- b` (R11, R20). No register is hardwired. -/
def State.setReg (s : State) (x : RegIdx) (b : Byte) : State := s.withV (s.v.set x b)

/-- A flag as the byte VF holds: 1 or 0 (R27). -/
def flagByte : Bool → Byte
  | true => 1
  | false => 0

/-- `VF <- b` as a flag (R21). -/
def State.setFlag (s : State) (b : Bool) : State := s.setReg 15 (flagByte b)

/-- `pc <- (pc + 2) mod 2^16`: the cycle's advance and a skip (R26, R92, R104). -/
def State.advancePc (s : State) : State := s.withPc (s.pc + 2)

/-- `pc <- (pc - 2) mod 2^16`: LDK's rewind (R202). -/
def State.rewindPc (s : State) : State := s.withPc (s.pc - 2)

/-- Skips the next instruction when `c` holds (R104). -/
def State.skipIf (s : State) (c : Bool) : State := if c then s.advancePc else s

/-! ## Faults -/

/-- `raise f` (R13, R216, R219): the latch is set and nothing else changes. There is no trap entry and no return from one
(R219, R220). A next state; the core has stopped in it, and `step` from it answers `.fault` (log 12). -/
def State.raise (s : State) (f : CoreFault) : State := s.withFault (some f)

/-- The spec's code number of a fault (R215). -/
def CoreFault.code : CoreFault → Nat
  | .loadTooLarge _ => 1
  | .loadUnreadable => 2
  | .unknownOpcode _ => 3
  | .memoryOutOfBounds _ => 4
  | .stackOverflow _ => 5
  | .stackUnderflow _ => 6
  | .keyIndexOutOfRange _ => 7
  | .sysUnsupported _ => 8

/-! ## Free values -/

/-- The next free value is used up. -/
def State.countFree (s : State) : State := s.withFreeCount (s.freeCount + 1)

/-- `RandomByte()`: the draw this state makes (R14). -/
def State.randomByte (s : State) : Byte := Config.randomByte s.freeCount

/-- U5: whether the faulting transfer of this state has changed its destination `d`. -/
def State.lands (s : State) (d : Nat) : Bool := Config.partialWriteLands s.freeCount d

/-! ## Block transfers -/

/-- The registers after `V[0]`..`V[last]` are loaded from `base` up (R155), those only whose address lies in memory and for
which `lands` holds. -/
def loadedRegs (s : State) (lands : Nat → Bool) (base : Nat) (last : RegIdx) : Vector Byte 16 :=
  Vector.ofFn fun r =>
    if r.val ≤ last.val ∧ base + r.val < memSize ∧ lands r.val then s.mem.read (base + r.val) else s.v[r]

/-- A store of `bytes` from `base` up that faults at the address `a`: each byte before `a` holds its old or its new value
(U5, log 13), and the fault is raised. -/
def State.storeFaulting (s : State) (base : Nat) (bytes : List Byte) (a : Nat) : State :=
  ((s.withMem (Memory.writeWhere s.lands base bytes s.mem)).countFree).raise (.memoryOutOfBounds a)

/-- A load of `V[0]`..`V[last]` from `base` up that faults at the address `a`: each register before the faulting one holds
its old or its new value (U5, log 13), and the fault is raised. -/
def State.loadFaulting (s : State) (base : Nat) (last : RegIdx) (a : Nat) : State :=
  ((s.withV (loadedRegs s s.lands base last)).countFree).raise (.memoryOutOfBounds a)

/-! ## Fetch -/

/-- The word at `pc` (R91). -/
def State.fetch (s : State) : Except CoreFault Word := memRead2 s.mem s.pc.toNat

end Sys2Proof.Machine
end

