-- ==== Sys2Proof/Machine/Flags.lean ====
section
/-! DEFINITION. The flag computations (spec 10_state.md R27, 42_alu.md R116 to R121, 44_index_memory.md R151), each from
the operands as they were when the instruction began (R110), and the one operation that writes a result and then its flag. -/

namespace Sys2Proof.Machine

/-- Carry out of an 8-bit add: the exact sum is above 255 (R116). -/
def carry8 (sum : Nat) : Bool := decide (255 < sum)

/-- Carry out of a 16-bit add: the exact sum is above 0xFFFF (R151). -/
def carry16 (sum : Nat) : Bool := decide (0xFFFF < sum)

/-- Not-borrow of `a - b`: 1 when `a >= b` (R118, R119). -/
def notBorrow (a b : Byte) : Bool := decide (b.toNat ≤ a.toNat)

/-- The bit a right shift by one moves out: bit 0 (R120). -/
def shiftedOutRight (src : Byte) : Bool := src.getLsbD 0

/-- The bit a left shift by one moves out: bit 7 (R121). -/
def shiftedOutLeft (src : Byte) : Bool := src.getLsbD 7

/-- `V[x] <- result`, then `VF <- flag`: the flag is written last, so it is VF's final value when `x = F` (R110, log 18). -/
def State.setResultAndFlag (s : State) (x : RegIdx) (result : Byte) (flag : Bool) : State :=
  (s.setReg x result).setFlag flag

end Sys2Proof.Machine
end

