-- ==== Sys2Proof/Machine/Operands.lean ====
section
/-! DEFINITION. The operand forms: how an instruction's fields and the registers give it its operands, targets and
addresses (spec 30_encoding.md R73, 43_control.md R140, 44_index_memory.md R152 to R157, 42_alu.md R120). -/

namespace Sys2Proof.Machine

/-- `zext_16(nnn)` (R73): the target of JP and CALL, the value of LDA. -/
def zextAddr (nnn : Addr12) : Word := nnn.setWidth 16

/-- JPV's target, `V[0] + nnn`, not reduced to 12 bits (R140). -/
def State.jpvTarget (s : State) (nnn : Addr12) : Word := (s.reg 0).setWidth 16 + zextAddr nnn

/-- The source of SHR and SHL: `V[x]` under the shift quirk, else `V[y]` (R120, R121). -/
def State.shiftSource (s : State) (x y : RegIdx) : Byte :=
  if s.settings.shiftVxIgnoreVy then s.reg x else s.reg y

/-- `sprite_address(digit)` = `digit * 5` as a 16-bit value, the digit not masked (R60, R152). -/
def spriteAddress (digit : Byte) : Word := BitVec.ofNat 16 (digit.toNat * 5)

/-- The address in `I` as an unbounded number; offsets from it do not wrap (R157). -/
def State.indexAddr (s : State) : Nat := s.i.toNat

/-- How many registers `V[0]`..`V[x]` are (R154, R155). -/
def blockLen (x : RegIdx) : Nat := x.val + 1

/-- `V[0]`..`V[x]` in order (R154). -/
def State.regBlock (s : State) (x : RegIdx) : List Byte := s.v.toList.take (blockLen x)

/-- The decimal digits of a byte: hundreds, tens, ones (R153). -/
def bcdDigits (b : Byte) : List Byte :=
  [BitVec.ofNat 8 (b.toNat / 100), BitVec.ofNat 8 (b.toNat / 10 % 10), BitVec.ofNat 8 (b.toNat % 10)]

/-- The increment quirk: `I <- (I + x + 1) mod 2^16` after LDI and LDJ when it is on (R154, R155, R156). -/
def State.bumpIndex (s : State) (x : RegIdx) : State :=
  if s.settings.incrementIRegister then s.withI (BitVec.ofNat 16 (s.i.toNat + x.val + 1)) else s

end Sys2Proof.Machine
end

