-- ==== Sys2Proof/Machine/Alu.lean ====
section
/-! DEFINITION. Load, logic and arithmetic (spec 42_alu.md R110 to R123): exact sums and differences, narrowed to 8 bits. -/

namespace Sys2Proof.Machine

/-- LD Vx, kk (R111). -/
def execLdImm (x : RegIdx) (kk : Byte) (s : State) : Host.Outcome State Fault Refusal :=
  .next (s.setReg x kk)

/-- LD Vx, Vy (R112). -/
def execLdReg (x y : RegIdx) (s : State) : Host.Outcome State Fault Refusal :=
  .next (s.setReg x (s.reg y))

/-- OR Vx, Vy (R113). -/
def execOr (x y : RegIdx) (s : State) : Host.Outcome State Fault Refusal :=
  .next (s.setReg x (s.reg x ||| s.reg y))

/-- AND Vx, Vy (R114). -/
def execAnd (x y : RegIdx) (s : State) : Host.Outcome State Fault Refusal :=
  .next (s.setReg x (s.reg x &&& s.reg y))

/-- XOR Vx, Vy (R115). -/
def execXor (x y : RegIdx) (s : State) : Host.Outcome State Fault Refusal :=
  .next (s.setReg x (s.reg x ^^^ s.reg y))

/-- ADD Vx, Vy, VF = carry (R116). -/
def execAddReg (x y : RegIdx) (s : State) : Host.Outcome State Fault Refusal :=
  let sum := (s.reg x).toNat + (s.reg y).toNat
  .next (s.setResultAndFlag x (BitVec.ofNat 8 sum) (carry8 sum))

/-- ADD Vx, kk, no flag (R117). -/
def execAddImm (x : RegIdx) (kk : Byte) (s : State) : Host.Outcome State Fault Refusal :=
  .next (s.setReg x (BitVec.ofNat 8 ((s.reg x).toNat + kk.toNat)))

/-- SUB Vx, Vy, VF = not-borrow (R118). -/
def execSub (x y : RegIdx) (s : State) : Host.Outcome State Fault Refusal :=
  .next (s.setResultAndFlag x (s.reg x - s.reg y) (notBorrow (s.reg x) (s.reg y)))

/-- SUBN Vx, Vy, VF = not-borrow, the operands reversed (R119). -/
def execSubn (x y : RegIdx) (s : State) : Host.Outcome State Fault Refusal :=
  .next (s.setResultAndFlag x (s.reg y - s.reg x) (notBorrow (s.reg y) (s.reg x)))

/-- SHR Vx, Vy, VF = bit 0 of the source (R120). -/
def execShr (x y : RegIdx) (s : State) : Host.Outcome State Fault Refusal :=
  let src := s.shiftSource x y
  .next (s.setResultAndFlag x (src >>> 1) (shiftedOutRight src))

/-- SHL Vx, Vy, VF = bit 7 of the source (R121). -/
def execShl (x y : RegIdx) (s : State) : Host.Outcome State Fault Refusal :=
  let src := s.shiftSource x y
  .next (s.setResultAndFlag x (src <<< 1) (shiftedOutLeft src))

/-- RND Vx, kk: a fresh free byte, masked (R122, R14; log 14). -/
def execRnd (x : RegIdx) (kk : Byte) (s : State) : Host.Outcome State Fault Refusal :=
  .next ((s.setReg x (s.randomByte &&& kk)).countFree)

end Sys2Proof.Machine
end

