-- ==== Sys2Proof/Machine/Control.lean ====
section
/-! DEFINITION. Control transfer (spec 43_control.md R135 to R141). At entry `pc` is the address of the next instruction (R92). -/

namespace Sys2Proof.Machine

/-- SYS nnn: nothing, or the fault when `SYS_FATAL` (R135, R8). -/
def execSys (nnn : Addr12) (s : State) : Host.Outcome State Fault Refusal :=
  .next (if s.sysFatal then s.raise (.sysUnsupported nnn) else s)

/-- JP nnn (R136). -/
def execJp (nnn : Addr12) (s : State) : Host.Outcome State Fault Refusal :=
  .next (s.withPc (zextAddr nnn))

/-- CALL nnn: pushes the return address, or raises the overflow before any write (R137). -/
def execCall (nnn : Addr12) (s : State) : Host.Outcome State Fault Refusal :=
  if h : s.sp.toNat < 16 then
    .next (((s.withStack (s.stack.set s.sp.toNat s.pc h)).withSp (s.sp + 1)).withPc (zextAddr nnn))
  else .next (s.raise (.stackOverflow (s.pc - 2)))

/-- RET: pops into pc, or raises the underflow before any write (R138). The popped entry is not cleared (R33). With sp above
16, which no run reaches (R29), there is no such entry (log 16). -/
def execRet (s : State) : Host.Outcome State Fault Refusal :=
  if s.sp = 0 then .next (s.raise (.stackUnderflow (s.pc - 2)))
  else if h : s.sp.toNat - 1 < 16 then .next ((s.withSp (s.sp - 1)).withPc (s.stack[s.sp.toNat - 1]))
  else .fault .stackPointerBeyondStack

/-- JPV nnn: `pc <- V[0] + nnn` (R140). -/
def execJpv (nnn : Addr12) (s : State) : Host.Outcome State Fault Refusal :=
  .next (s.withPc (s.jpvTarget nnn))

end Sys2Proof.Machine
end

