-- ==== Sys2Proof/Machine/Display.lean ====
section
/-! DEFINITION. The display and the sprite rasterizer (spec 45_display.md R170 to R186). -/

namespace Sys2Proof.Machine

open Sys2Proof.Config (height)

/-- The pixel grid, column first. -/
abbrev Grid := Vector (Vector Bool 32) 64

/-- What a blit works on: the grid, the dirty flag, and the collision found so far (R173). -/
structure Blit where
  pix : Grid
  dirty : Bool
  collision : Bool
deriving DecidableEq, Repr

/-- A column reduced modulo the grid's width: columns always wrap (R175). -/
def wrapColumn (xx : Nat) : Fin 64 := Fin.ofNat 64 xx

/-- A row reduced modulo the grid's height (R173). -/
def wrapRow (yy : Nat) : Fin 32 := Fin.ofNat 32 yy

/-- `Pix[x][y]` of a grid. -/
def Grid.get (g : Grid) (x : Fin 64) (y : Fin 32) : Bool := g[x][y]

/-- `Pix[x][y] <- b`. -/
def Grid.put (g : Grid) (x : Fin 64) (y : Fin 32) (b : Bool) : Grid := g.set x (g[x].set y b)

/-- A sprite bit of 1 at (x, y): the collision is tested before the XOR, and the display is dirty (R173, R177, R179). -/
def Blit.toggle (b : Blit) (x : Fin 64) (y : Fin 32) : Blit :=
  { pix := b.pix.put x y (!b.pix.get x y)
    dirty := true
    collision := b.collision || b.pix.get x y }

/-- The bit of a sprite byte for column `col`, most significant first (R170, R173). -/
def spriteBit (byte : Byte) (col : Nat) : Bool := byte.getLsbD (7 - col)

/-- One row of a sprite, its eight columns in order (R173). A 0 bit leaves its pixel unchanged. -/
def drawRow (ox : Nat) (y : Fin 32) (byte : Byte) (b : Blit) : Blit :=
  (List.range 8).foldl (fun b col => if spriteBit byte col then b.toggle (wrapColumn (ox + col)) y else b) b

/-- The rows of a sprite from row `yy` down (R173, R174): with vertical wrap off, the first row at or past 32 ends the blit. -/
def drawRows (wrap : Bool) (ox : Nat) : Nat → List Byte → Blit → Blit
  | _, [], b => b
  | yy, byte :: rest, b =>
    if height ≤ yy ∧ wrap = false then b
    else drawRows wrap ox (yy + 1) rest (drawRow ox (wrapRow yy) byte b)

/-- `draw(ox, oy, bytes)` on the state's display (R173). -/
def State.blit (s : State) (ox oy : Nat) (bytes : List Byte) : Blit :=
  drawRows s.settings.verticalWrap ox oy bytes { pix := s.pix, dirty := s.dirty, collision := false }

/-- The grid with every pixel off (R171). -/
def blankGrid : Grid := Vector.replicate 64 (Vector.replicate 32 false)

/-- `clear()`: all pixels off, and dirty (R171). -/
def State.clearDisplay (s : State) : State := (s.withPix blankGrid).withDirty true

/-- CLS (R171). -/
def execCls (s : State) : Host.Outcome State Fault Refusal :=
  .next s.clearDisplay

/-- DRW Vx, Vy, n (R172): the origin is the raw register values (R174), all rows are read first (R180), VF is written last
(R178). -/
def execDrw (x y : RegIdx) (n : Fin 16) (s : State) : Host.Outcome State Fault Refusal :=
  match firstOutOfBounds s.indexAddr n.val with
  | some a => .next (s.raise (.memoryOutOfBounds a))
  | none =>
    let b := s.blit (s.reg x).toNat (s.reg y).toNat (s.mem.readBlock s.indexAddr n.val)
    .next (((s.withPix b.pix).withDirty b.dirty).setFlag b.collision)

/-! ## The host's side -/

/-- `pixel_at(x, y)` (R185). -/
def State.pixelAt (s : State) (x : Fin 64) (y : Fin 32) : Bool := Grid.get s.pix x y

/-- `take_dirty()`: returns `Dirty` and clears it (R186). -/
def State.takeDirty (s : State) : Bool × State := (s.dirty, s.withDirty false)

end Sys2Proof.Machine
end

