-- ==== Sys2Proof/Machine/IndexMemory.lean ====
section
/-! DEFINITION. The index register and the memory transfers (spec 44_index_memory.md R150 to R157). -/

namespace Sys2Proof.Machine

/-- LDA nnn (R150). -/
def execLda (nnn : Addr12) (s : State) : Host.Outcome State Fault Refusal :=
  .next (s.withI (zextAddr nnn))

/-- ADDI Vx: 16-bit wrapping add into `I`; under the quirk VF = carry, written last (R151; log 18). -/
def execAddi (x : RegIdx) (s : State) : Host.Outcome State Fault Refusal :=
  let sum := s.i.toNat + (s.reg x).toNat
  let t := s.withI (BitVec.ofNat 16 sum)
  .next (if s.settings.setVfWhenOverflow then t.setFlag (carry16 sum) else t)

/-- LDSPR Vx (R152). -/
def execLdspr (x : RegIdx) (s : State) : Host.Outcome State Fault Refusal :=
  .next (s.withI (spriteAddress (s.reg x)))

/-- LDB Vx: the three decimal digits at `I` (R153). -/
def execLdb (x : RegIdx) (s : State) : Host.Outcome State Fault Refusal :=
  match firstOutOfBounds s.indexAddr 3 with
  | none => .next (s.withMem (Memory.writeBlock s.indexAddr (bcdDigits (s.reg x)) s.mem))
  | some a => .next (s.storeFaulting s.indexAddr (bcdDigits (s.reg x)) a)

/-- LDI Vx: `V[0]`..`V[x]` to memory at `I` (R154). -/
def execLdi (x : RegIdx) (s : State) : Host.Outcome State Fault Refusal :=
  match firstOutOfBounds s.indexAddr (blockLen x) with
  | none => .next ((s.withMem (Memory.writeBlock s.indexAddr (s.regBlock x) s.mem)).bumpIndex x)
  | some a => .next (s.storeFaulting s.indexAddr (s.regBlock x) a)

/-- LDJ Vx: `V[0]`..`V[x]` from memory at `I` (R155). -/
def execLdj (x : RegIdx) (s : State) : Host.Outcome State Fault Refusal :=
  match firstOutOfBounds s.indexAddr (blockLen x) with
  | none => .next ((s.withV (loadedRegs s (fun _ => true) s.indexAddr x)).bumpIndex x)
  | some a => .next (s.loadFaulting s.indexAddr x a)

end Sys2Proof.Machine
end

