-- ==== Sys2Proof/Machine/Keyboard.lean ====
section
/-! DEFINITION. The keyboard latch, the key skips and the key wait (spec 46_keyboard_timers.md R190 to R203). -/

namespace Sys2Proof.Machine

/-! ## The latch -/

/-- `Key[k]` (R35). -/
def State.keyState (s : State) (k : KeyIdx) : Bool := s.key[k]

/-- `Key[k] <- b` (R35). -/
def State.setKey (s : State) (k : KeyIdx) (b : Bool) : State := s.withKey (s.key.set k b)

/-- `key_down(k)` (R190): the first key pressed after arming is captured. -/
def State.keyDown (s : State) (k : KeyIdx) : State :=
  let t := s.setKey k true
  match s.wait with
  | .armed => t.withWait (.captured k)
  | .none | .captured _ => t

/-- `key_up(k)` (R191): a release of the captured key cancels the capture. -/
def State.keyUp (s : State) (k : KeyIdx) : State :=
  let t := s.setKey k false
  match s.wait with
  | .captured j => if j = k then t.withWait .armed else t
  | .none | .armed => t

/-- `wait_key_press()` (R195): the latch after the call, and the key it returns. -/
def Wait.poll : Wait → Wait × Option KeyIdx
  | .none => (.armed, Option.none)
  | .armed => (.armed, Option.none)
  | .captured k => (.none, some k)

/-- The CPU is suspended-on-key-wait exactly when the latch is armed (R41). -/
def State.suspended (s : State) : Bool := s.wait != .none

/-! ## The key skips -/

/-- Skips when the key named by `V[x]` is in the position `down`; a value above 15 names no key (R194, R196, R197). -/
def State.skipOnKey (s : State) (x : RegIdx) (down : Bool) : State :=
  if h : (s.reg x).toNat < 16 then s.skipIf (s.keyState ⟨(s.reg x).toNat, h⟩ == down)
  else s.raise (.keyIndexOutOfRange (s.reg x))

/-- SKP Vx (R196). -/
def execSkp (x : RegIdx) (s : State) : Host.Outcome State Fault Refusal :=
  .next (s.skipOnKey x true)

/-- SKNP Vx (R197). -/
def execSknp (x : RegIdx) (s : State) : Host.Outcome State Fault Refusal :=
  .next (s.skipOnKey x false)

/-! ## The key wait -/

/-- LDK Vx (R202): with no key, pc is rewound and this LDK is fetched again; with key k, `V[x] <- k`. -/
def execLdk (x : RegIdx) (s : State) : Host.Outcome State Fault Refusal :=
  match s.wait.poll with
  | (w, none) => .next ((s.withWait w).rewindPc)
  | (w, some k) => .next ((s.withWait w).setReg x (BitVec.ofNat 8 k.val))

end Sys2Proof.Machine
end

