-- ==== Sys2Proof/Machine/Timers.lean ====
section
/-! DEFINITION. The timers (spec 46_keyboard_timers.md R198 to R200, 60_exceptions.md R222 to R225) and the clock divider
(60_exceptions.md R226 to R229). -/

namespace Sys2Proof.Machine

open Sys2Proof.Config (ClockId)

/-! ## Timer access -/

/-- LDT Vx (R198). -/
def execLdt (x : RegIdx) (s : State) : Host.Outcome State Fault Refusal :=
  .next (s.setReg x s.dt)

/-- LDF Vx (R199). -/
def execLdf (x : RegIdx) (s : State) : Host.Outcome State Fault Refusal :=
  .next (s.withDt (s.reg x))

/-- LDS Vx (R200). -/
def execLds (x : RegIdx) (s : State) : Host.Outcome State Fault Refusal :=
  .next (s.withSt (s.reg x))

/-! ## Ticks -/

/-- Decrement toward, not below, 0 (R30, R222, R223). -/
def countDown (b : Byte) : Byte := if b = 0 then 0 else b - 1

/-- `tick_delay()` (R222). -/
def State.tickDelay (s : State) : State := s.withDt (countDown s.dt)

/-- What `tick_sound()` returns: whether `ST` is still non-zero after the decrement (R223). -/
def State.soundActive (s : State) : Bool := countDown s.st != 0

/-- `tick_sound()`, with the boolean it sends to the audio collaborator: the result gated by `mute`, which does not stop
`ST` (R223, R224). -/
def State.tickSound (s : State) : State :=
  (s.withSt (countDown s.st)).withTone (s.soundActive && !s.settings.mute)

/-! ## The clock divider -/

/-- A poll at `now` fires: a whole period has elapsed since the last fire (R227). -/
def Clock.due (c : Clock) (now : Nat) : Bool := decide (c.period ≤ now - c.last)

/-- A fire advances the recorded instant by exactly one period (R227, R39). -/
def Clock.advance (c : Clock) : Clock := { c with last := c.last + c.period }

/-- `tick(now)` (R227): whether the clock fires, and the clock afterward. -/
def Clock.tick (c : Clock) (now : Nat) : Bool × Clock :=
  if c.due now then (true, c.advance) else (false, c)

/-- One of the three clocks (R229). -/
def State.clock (s : State) : ClockId → Clock
  | .cpu => s.cpuClock
  | .delay => s.delayClock
  | .sound => s.soundClock

/-- One of the three clocks replaced. -/
def State.withClock (s : State) : ClockId → Clock → State
  | .cpu, c => s.withCpuClock c
  | .delay, c => s.withDelayClock c
  | .sound, c => s.withSoundClock c

end Sys2Proof.Machine
end

