-- ==== Sys2Proof/Machine/Cycle.lean ====
section
/-! DEFINITION. One CPU cycle (spec 40_cycle.md R90 to R99) and the steps the outer loop delivers (60_exceptions.md R227 to
R233). -/

namespace Sys2Proof.Machine

open Sys2Proof.Config (ClockId HostEvent)

/-- `cycle()` (R90): fetch, decode, advance, execute. A fetch or decode fault is raised before the advance (R91, R93). -/
def cycle (s : State) : Host.Outcome State Fault Refusal :=
  match s.fetch with
  | .error f => .next (s.raise f)
  | .ok w =>
    match decode w with
    | .error _ => .next (s.raise (.unknownOpcode w))
    | .ok i => exec i s.advancePc

/-- A clock fires (R229): its recorded instant advances by one period (R39, R227), and one CPU cycle, one delay tick or one
sound tick runs (log 10). -/
def fireClock (c : ClockId) (s : State) : Host.Outcome State Fault Refusal :=
  let t := s.withClock c (s.clock c).advance
  match c with
  | .cpu => cycle t
  | .delay => .next t.tickDelay
  | .sound => .next t.tickSound

/-- One step of the outer loop, its event already taken (R15, R232). -/
def deliver (e : HostEvent) (s : State) : Host.Outcome State Fault Refusal :=
  match e with
  | .fire c => fireClock c s
  | .poll c now => if (s.clock c).due now then fireClock c s else .next s
  | .keyDown k => .next (s.keyDown k)
  | .keyUp k => .next (s.keyUp k)
  | .noEvent => .next s
  | .flush => .next s.takeDirty.2
  | .quit => .next s

/-- The step the outer loop delivers next: the first one listed, and when none is listed the one of its own free choice
(R230, log 9). -/
def State.nextEvent (s : State) : HostEvent :=
  match s.schedule with
  | [] => Config.outerLoopEvent s.eventCount
  | e :: _ => e

/-- The next step is taken: off the list, or counted as the outer loop's own choice. -/
def State.takeEvent (s : State) : State :=
  match s.schedule with
  | [] => s.withEventCount (s.eventCount + 1)
  | _ :: rest => s.withSchedule rest

/-- The outer loop (R230): the next step is taken and delivered. `Quit` is not taken, since after it the host calls the core
no more (R233, log 11). -/
def runOuterLoop (s : State) : Host.Outcome State Fault Refusal :=
  match s.nextEvent with
  | .quit => deliver .quit s
  | e => deliver e s.takeEvent

/-- One step: none once a fault is latched (R40, R216). -/
def coreStep (s : State) : Host.Outcome State Fault Refusal :=
  match s.fault with
  | some f => .fault (.stopped f)
  | none => runOuterLoop s

end Sys2Proof.Machine
end

