-- ==== Sys2Proof/Machine/Load.lean ====
section
/-! DEFINITION. The program load (spec 70_reset_and_hazards.md R240 to R242): the host's one memory operation, before any
cycle (20_memory.md R64). It is no event of the outer loop (log 15). -/

namespace Sys2Proof.Machine

open Sys2Proof.Config (memSize progBase Params)

/-- `load(bytes)` (R241): `none` is a byte source that cannot be read. Any length that fits is accepted (the spec's decision
D33). -/
def State.load (source : Option (List Byte)) (s : State) : State :=
  match source with
  | none => s.raise .loadUnreadable
  | some bytes =>
    if memSize < progBase + bytes.length then s.raise (.loadTooLarge bytes.length)
    else s.withMem (Memory.writeBlock progBase bytes s.mem)

/-- Bring-up (R240): the machine constructed with the parameters `p`, then the program loaded. -/
def State.boot (p : Params) (source : Option (List Byte)) : State := (State.constructed p).load source

end Sys2Proof.Machine
end

