-- ==== Sys2Proof/Machine/Step.lean ====
section
/-! DEFINITION. The step of the machine, and the host's way to place one instruction where the next step fetches it. -/

namespace Sys2Proof.Machine

/-- One step of the machine: see `coreStep` (R15, R40, R90, R230). -/
def step (s : State) : Host.Outcome State Fault Refusal := coreStep s

/-- Whether a fire of the CPU clock is listed first, so that the next step is a CPU cycle. -/
def State.cpuNext (s : State) : Bool :=
  match s.schedule with
  | .fire .cpu :: _ => true
  | _ => false

/-- `s` with `n` fires of the CPU clock listed first, so that its next `n` steps are CPU cycles (log 15). -/
def State.withCpuFires (s : State) (n : Nat) : State := s.withSchedule (List.replicate n (.fire .cpu) ++ s.schedule)

/-- `s` with the instruction word `w` (the bits from `nbits` up are 0) stored big-endian at `pc`, the latch clear and a CPU
cycle next, so that `step` runs it. Where no word fits at `pc`, `pc` is put at 0x200 (log 15). -/
def State.withFetchWord (s : State) (nbits w : Nat) : State :=
  let a : Word := if s.pc.toNat + 1 < 4096 then s.pc else 0x200
  let bytes := bytesOfWord (BitVec.ofNat 16 (w % 2 ^ nbits))
  { s with
    pc := a
    mem := Memory.writeBlock a.toNat bytes s.mem
    fault := none
    schedule := if s.cpuNext then s.schedule else .fire .cpu :: s.schedule }

end Sys2Proof.Machine
end

