-- ==== Sys2Proof/Safety.lean ====
section
/-! DEFINITION. The terms the statements use: what a safe state of the core is, and the shapes an instruction's effect can
have. -/

namespace Sys2Proof.Machine

/-! ## Safe states -/

/-- The bounds every run keeps: at most 16 return addresses (spec 10_state.md R29), each of them the address after a fetched
word (R33, R92), a `pc` no instruction can set above 0x10FE (R23, R26), and clocks with a positive period (00_scope.md R7). -/
structure State.Bounded (s : State) : Prop where
  sp_le : s.sp.toNat ≤ 16
  stack_le : ∀ k : Fin 16, s.stack[k].toNat ≤ 0x1000
  pc_le : s.pc.toNat ≤ 0x10FE
  cpu_pos : 0 < s.cpuClock.period
  delay_pos : 0 < s.delayClock.period
  sound_pos : 0 < s.soundClock.period

/-- While the wait latch is armed the word at `pc` is the LDK that armed it (R41, 40_cycle.md R99): no other instruction
executes until it is consumed. -/
def State.WaitsAtLdk (s : State) : Prop :=
  s.wait ≠ .none → ∃ w x, s.fetch = .ok w ∧ decode w = .ok (.ldk x)

/-- The core runs: no fault is latched (R40). -/
def State.Running (s : State) : Prop := s.fault = none

/-- The step the outer loop delivers next is `e`, listed or of its own choice (R230). -/
def State.Delivers (s : State) (e : Config.HostEvent) : Prop := s.nextEvent = e

/-! ## Shapes of an effect: each says the whole next state, so it says what is left unchanged too -/

/-- The outcome is a next state in which `V[x]` is `b` and nothing else has changed. -/
def WritesReg (s : State) (o : Host.Outcome State Fault Refusal) (x : RegIdx) (b : Byte) : Prop :=
  ∃ v', o = .next { s with v := v' } ∧ v'[x] = b ∧ ∀ r : RegIdx, r ≠ x → v'[r] = s.v[r]

/-- The outcome is a next state in which VF is `f`, `V[x]` is `b` unless `x = F`, and nothing else has changed (R110: the
flag is written last). -/
def WritesRegAndFlag (s : State) (o : Host.Outcome State Fault Refusal) (x : RegIdx) (b f : Byte) : Prop :=
  ∃ v', o = .next { s with v := v' } ∧ v'[(15 : RegIdx)] = f ∧ (x ≠ 15 → v'[x] = b) ∧
    ∀ r : RegIdx, r ≠ x → r ≠ 15 → v'[r] = s.v[r]

/-- The outcome is a next state in which the core has stopped with the fault `f` and nothing else has changed (R219). -/
def Raises (s : State) (o : Host.Outcome State Fault Refusal) (f : CoreFault) : Prop :=
  o = .next { s with fault := some f }

/-- A 1 bit of the sprite that DRW Vx, Vy, n draws falls on the pixel (cx, cy): some row that is not clipped and some column
have a 1 bit there (spec 45_display.md R173 to R175, each row's bits most significant first). -/
def SpriteLights (s : State) (x y : RegIdx) (n : Fin 16) (cx : Fin 64) (cy : Fin 32) : Prop :=
  ∃ row col, row < n.val ∧ col < 8 ∧
    (s.settings.verticalWrap = true ∨ s.v[y].toNat + row < 32) ∧
    (s.v[x].toNat + col) % 64 = cx.val ∧ (s.v[y].toNat + row) % 32 = cy.val ∧
    (s.mem.read (s.i.toNat + row)).getLsbD (7 - col) = true

/-- The illegal words of 30_encoding.md R79, by their nibbles and low byte. -/
def IllegalWord (w : Word) : Prop :=
  (w.toNat / 0x1000 = 0x5 ∧ w.toNat % 0x10 ≠ 0) ∨
  (w.toNat / 0x1000 = 0x9 ∧ w.toNat % 0x10 ≠ 0) ∨
  (w.toNat / 0x1000 = 0x8 ∧ w.toNat % 0x10 ∈ [0x8, 0x9, 0xA, 0xB, 0xC, 0xD, 0xF]) ∨
  (w.toNat / 0x1000 = 0xE ∧ w.toNat % 0x100 ∉ [0x9E, 0xA1]) ∨
  (w.toNat / 0x1000 = 0xF ∧ w.toNat % 0x100 ∉ [0x07, 0x0A, 0x15, 0x18, 0x1E, 0x29, 0x33, 0x55, 0x65])

/-- A clock polled at the given times in turn (60_exceptions.md R227): how often it fires, and the clock afterward. -/
def Clock.pollAll (c : Clock) : List Nat → Nat × Clock
  | [] => (0, c)
  | now :: rest =>
    let r := c.tick now
    let q := r.2.pollAll rest
    (q.1 + (if r.1 then 1 else 0), q.2)

end Sys2Proof.Machine
end

