-- ==== Sys2Proof/Certificates/Slice0/Obligations.lean ====
section
/-! DEFINITION. The statements for the provers, from the numbered rules of spec/. A next state is written whole, as
`{ s with … }`: every field not named there is unchanged, and that is the frame. `exec` runs after the cycle's advance, so
`s.pc` is the address of the following instruction (R92). Where a rule carries the spec's own decision mark the statement
is derived, and its docstring names the decision. -/

open Sys2Proof Sys2Proof.Machine
open Sys2Proof.Config (ClockId HostEvent)

/-! ## Encoding -/

/-- Words written out from the patterns of R82 decode to the instructions they stand for (vectors V-DEC of the spec; function
values: decision D1, log 17). -/
def Obligations.SampleWordsDecode : Prop :=
  decode 0x00E0 = .ok .cls ∧ decode 0x00EE = .ok .ret ∧ decode 0x00E1 = .ok (.sys 0x0E1) ∧
  decode 0x1ABC = .ok (.jp 0xABC) ∧ decode 0x2ABC = .ok (.call 0xABC) ∧ decode 0x3A12 = .ok (.seImm 0xA 0x12) ∧
  decode 0x5AB0 = .ok (.seReg 0xA 0xB) ∧ decode 0x8AB4 = .ok (.addReg 0xA 0xB) ∧ decode 0x8ABE = .ok (.shl 0xA 0xB) ∧
  decode 0xBFFF = .ok (.jpv 0xFFF) ∧ decode 0xDAB0 = .ok (.drw 0xA 0xB 0) ∧ decode 0xE1A1 = .ok (.sknp 1) ∧
  decode 0xF10A = .ok (.ldk 1) ∧ decode 0xF129 = .ok (.ldspr 1) ∧ decode 0xF165 = .ok (.ldj 1) ∧
  decode 0x5AB1 = .error (.unknownOpcode 0x5AB1) ∧ decode 0x8AB8 = .error (.unknownOpcode 0x8AB8) ∧
  decode 0xE1A2 = .error (.unknownOpcode 0xE1A2) ∧ decode 0xF166 = .error (.unknownOpcode 0xF166)

/-- Decoding the bytes of an encoded well-formed instruction gives it back, with every operand at every value, and leaves the
bytes that follow (R71, R76, R82; decisions D1 to D3). -/
def Obligations.EncodedInstructionsDecodeBack : Prop :=
  ∀ (i : Instr) (rest : List Byte), i.wellFormed = true → decodeBytes (encodeBytes i ++ rest) = .ok (i, rest)

/-- Every word that decodes is the encoding of the well-formed instruction it decodes to, so a word has one meaning and no
bit of it is dropped (R71, R76; decisions D1 to D3). -/
def Obligations.DecodedWordsEncodeBack : Prop :=
  ∀ (w : Word) (i : Instr), decode w = .ok i → i.wellFormed = true ∧ encode i = w

/-- The decoder rejects exactly the illegal words of R79, each with the whole word; every other word is an instruction
(R76, R77, R79; decisions D2, D3). -/
def Obligations.DecoderRejectsExactlyTheIllegalWords : Prop :=
  ∀ w : Word, (IllegalWord w → decode w = .error (.unknownOpcode w)) ∧ (¬ IllegalWord w → ∃ i, decode w = .ok i)

/-! ## The cycle -/

/-- When the two bytes at `pc`, big-endian, decode to `i` and the CPU clock fires next, the step is `exec i` after the cycle's
advance of `pc` by 2; the step also counts the fire on the CPU clock (R39) and takes it (R90, R92; log 9, log 10). -/
def Obligations.StepRunsTheDecodedInstruction : Prop :=
  ∀ (s : State) (i : Instr), s.Running → s.Delivers (.fire .cpu) → s.pc.toNat + 1 < 4096 →
    decode (wordOfBytes (s.mem.read s.pc.toNat) (s.mem.read (s.pc.toNat + 1))) = .ok i →
    step s = exec i { s.takeEvent with
      pc := s.pc + 2
      cpuClock := { s.cpuClock with last := s.cpuClock.last + s.cpuClock.period } }

/-- R93: a decode failure raises `UnknownOpcode(w)` with the fetched word and is fatal; `pc` still holds the address of that
word and the cycle changes nothing else (the step has counted the clock's fire, R39). -/
def Obligations.IllegalWordIsFatalBeforeTheAdvance : Prop :=
  ∀ (s : State) (w : Word), s.Running → s.Delivers (.fire .cpu) → s.pc.toNat + 1 < 4096 →
    w = wordOfBytes (s.mem.read s.pc.toNat) (s.mem.read (s.pc.toNat + 1)) → (∀ i, decode w ≠ .ok i) →
    Raises s (cycle s) (.unknownOpcode w) ∧
    ∃ t, step s = .next t ∧ t.pc = s.pc ∧ t.fault = some (.unknownOpcode w) ∧
      step t = .fault (.stopped (.unknownOpcode w))

/-- A fetch that does not lie wholly below 4096 raises `MemoryOutOfBounds` at the first address outside, before the advance
(R91; decision D13). -/
def Obligations.FetchOutsideMemoryIsFatal : Prop :=
  ∀ s : State, (4096 ≤ s.pc.toNat → Raises s (cycle s) (.memoryOutOfBounds s.pc.toNat)) ∧
    (s.pc.toNat = 4095 → Raises s (cycle s) (.memoryOutOfBounds 4096))

/-- While a fault is latched no step of any agent runs: the core answers that fault, and so a latched fault is never changed
or cleared (R40, R216; decision D25, log 12). -/
def Obligations.LatchedFaultStopsEveryStep : Prop :=
  (∀ (s : State) (f : CoreFault), s.fault = some f → step s = .fault (.stopped f)) ∧
  ∀ s t : State, step s = .next t → s.Running

/-! ## Skips, loads, logic, arithmetic -/

/-- R100 and R101: SE Vx, kk and SNE Vx, kk add 2 to `pc` again when their condition holds, and do nothing else. -/
def Obligations.ImmediateSkipsComplete : Prop :=
  ∀ (x : RegIdx) (kk : Byte) (s : State),
    encode (.seImm x kk) = BitVec.ofNat 16 (0x3000 + x.val * 0x100 + kk.toNat) ∧
    exec (.seImm x kk) s = .next { s with pc := if s.v[x] = kk then s.pc + 2 else s.pc } ∧
    encode (.sneImm x kk) = BitVec.ofNat 16 (0x4000 + x.val * 0x100 + kk.toNat) ∧
    exec (.sneImm x kk) s = .next { s with pc := if s.v[x] = kk then s.pc else s.pc + 2 }

/-- SE Vx, Vy and SNE Vx, Vy (R102, R103; decision D2 for their low nibble); with one register twice SE always skips and SNE
never does. -/
def Obligations.RegisterSkipsComplete : Prop :=
  ∀ (x y : RegIdx) (s : State),
    exec (.seReg x y) s = .next { s with pc := if s.v[x] = s.v[y] then s.pc + 2 else s.pc } ∧
    exec (.sneReg x y) s = .next { s with pc := if s.v[x] = s.v[y] then s.pc else s.pc + 2 } ∧
    exec (.seReg x x) s = .next { s with pc := s.pc + 2 } ∧ exec (.sneReg x x) s = .next s

/-- R111 and R117: LD Vx, kk writes `kk`, ADD Vx, kk adds it modulo 256; neither writes a flag, so VF changes only as the
destination. -/
def Obligations.ImmediateLoadAndAddWriteNoFlag : Prop :=
  ∀ (x : RegIdx) (kk : Byte) (s : State),
    encode (.ldImm x kk) = BitVec.ofNat 16 (0x6000 + x.val * 0x100 + kk.toNat) ∧
    WritesReg s (exec (.ldImm x kk) s) x kk ∧
    encode (.addImm x kk) = BitVec.ofNat 16 (0x7000 + x.val * 0x100 + kk.toNat) ∧
    WritesReg s (exec (.addImm x kk) s) x (BitVec.ofNat 8 ((s.v[x].toNat + kk.toNat) % 256))

/-- LD Vx, Vy; OR; AND; XOR write `V[x]` and touch no flag, VF included unless it is the destination (R112 to R115; their low
nibbles are decision D1, log 17). -/
def Obligations.CopyAndLogicWriteOnlyTheDestination : Prop :=
  ∀ (x y : RegIdx) (s : State),
    (encode (.ldReg x y) = BitVec.ofNat 16 (0x8000 + x.val * 0x100 + y.val * 0x10) ∧
      WritesReg s (exec (.ldReg x y) s) x s.v[y]) ∧
    (encode (.or x y) = BitVec.ofNat 16 (0x8001 + x.val * 0x100 + y.val * 0x10) ∧
      WritesReg s (exec (.or x y) s) x (s.v[x] ||| s.v[y])) ∧
    (encode (.and x y) = BitVec.ofNat 16 (0x8002 + x.val * 0x100 + y.val * 0x10) ∧
      WritesReg s (exec (.and x y) s) x (s.v[x] &&& s.v[y])) ∧
    (encode (.xor x y) = BitVec.ofNat 16 (0x8003 + x.val * 0x100 + y.val * 0x10) ∧
      WritesReg s (exec (.xor x y) s) x (s.v[x] ^^^ s.v[y]))

/-- ADD Vx, Vy: the exact sum is `carry * 256 + result`, VF is the carry, written last (R116, R110; decision D16). -/
def Obligations.AddRegisterSetsCarry : Prop :=
  ∀ (x y : RegIdx) (s : State), ∃ result carry : Byte,
    WritesRegAndFlag s (exec (.addReg x y) s) x result carry ∧ carry.toNat ≤ 1 ∧
    s.v[x].toNat + s.v[y].toNat = carry.toNat * 256 + result.toNat

/-- SUB and SUBN: VF = 1 exactly when the minuend is at least the subtrahend; the result plus the subtrahend is the minuend,
plus 256 on a borrow; VF is written last (R118, R119, R110; decision D16). -/
def Obligations.SubtractionsSetNotBorrow : Prop :=
  ∀ (x y : RegIdx) (s : State),
    (∃ result flag : Byte, WritesRegAndFlag s (exec (.sub x y) s) x result flag ∧
      flag = (if s.v[y].toNat ≤ s.v[x].toNat then 1 else 0) ∧
      result.toNat + s.v[y].toNat = s.v[x].toNat + (1 - flag.toNat) * 256) ∧
    (∃ result flag : Byte, WritesRegAndFlag s (exec (.subn x y) s) x result flag ∧
      flag = (if s.v[x].toNat ≤ s.v[y].toNat then 1 else 0) ∧
      result.toNat + s.v[x].toNat = s.v[y].toNat + (1 - flag.toNat) * 256)

/-- SHR and SHL: the source is `V[x]` under the shift quirk, else `V[y]`; the bit moved out goes to VF, written last, and no
bit is lost between them (R120, R121, R110; decision D16). -/
def Obligations.ShiftsMoveTheBitOutToTheFlag : Prop :=
  ∀ (x y : RegIdx) (s : State),
    let src := if s.settings.shiftVxIgnoreVy = true then s.v[x] else s.v[y]
    (∃ result flag : Byte, WritesRegAndFlag s (exec (.shr x y) s) x result flag ∧ flag.toNat ≤ 1 ∧
      src.toNat = result.toNat * 2 + flag.toNat) ∧
    (∃ result flag : Byte, WritesRegAndFlag s (exec (.shl x y) s) x result flag ∧ flag.toNat ≤ 1 ∧
      src.toNat * 2 = flag.toNat * 256 + result.toNat)

/-- RND Vx, kk: some drawn byte ANDed with `kk`, whatever the draw, so no bit outside `kk` is set; the draw is fresh: the
count of free values advances (R122, R14; decision D28, log 14). -/
def Obligations.RandomByteIsMasked : Prop :=
  ∀ (x : RegIdx) (kk : Byte) (s : State), ∃ v' : Vector Byte 16,
    exec (.rnd x kk) s = .next { s with v := v', freeCount := s.freeCount + 1 } ∧
    v'[x] = Config.randomByte s.freeCount &&& kk ∧ v'[x] &&& ~~~kk = 0 ∧
    ∀ r : RegIdx, r ≠ x → v'[r] = s.v[r]

/-! ## Control transfer -/

/-- SYS does nothing beyond the cycle's advance, or raises `SysUnsupported(nnn)` when `SYS_FATAL` (R135, R8; decision D3). -/
def Obligations.SysDoesNothingUnlessFatal : Prop :=
  ∀ (nnn : Addr12) (s : State),
    (s.sysFatal = false → exec (.sys nnn) s = .next s) ∧
    (s.sysFatal = true → Raises s (exec (.sys nnn) s) (.sysUnsupported nnn))

/-- R136 and R140: JP sets `pc` to `nnn`; JPV sets it to `V[0] + nnn`, which is not reduced to 12 bits. -/
def Obligations.JumpsSetPc : Prop :=
  ∀ (nnn : Addr12) (s : State),
    encode (.jp nnn) = BitVec.ofNat 16 (0x1000 + nnn.toNat) ∧
    (∃ a : Word, exec (.jp nnn) s = .next { s with pc := a } ∧ a.toNat = nnn.toNat) ∧
    encode (.jpv nnn) = BitVec.ofNat 16 (0xB000 + nnn.toNat) ∧
    (∃ a : Word, exec (.jpv nnn) s = .next { s with pc := a } ∧ a.toNat = s.v[(0 : RegIdx)].toNat + nnn.toNat)

/-- CALL pushes the address of the following instruction and jumps; with 16 addresses on the stack it raises `StackOverflow`
with its own address before any write (R137; decision D14). -/
def Obligations.CallPushesOrOverflows : Prop :=
  ∀ (nnn : Addr12) (s : State),
    (∀ h : s.sp.toNat < 16, ∃ (a : Word) (n : Byte),
      exec (.call nnn) s = .next { s with stack := s.stack.set s.sp.toNat s.pc h, sp := n, pc := a } ∧
      a.toNat = nnn.toNat ∧ n.toNat = s.sp.toNat + 1) ∧
    (16 ≤ s.sp.toNat → Raises s (exec (.call nnn) s) (.stackOverflow (s.pc - 2)))

/-- RET pops the top entry into `pc` and does not clear it; on an empty stack it raises `StackUnderflow` with its own address
before any write (R138, R33; decision D14). With `sp` above 16, which `BoundedStatesStayBounded` rules out of every run, it
stops by name (log 16). -/
def Obligations.ReturnPopsOrUnderflows : Prop :=
  ∀ s : State,
    (∀ h : s.sp.toNat - 1 < 16, 0 < s.sp.toNat → ∃ n : Byte,
      exec .ret s = .next { s with sp := n, pc := s.stack[s.sp.toNat - 1] } ∧ n.toNat = s.sp.toNat - 1) ∧
    (s.sp.toNat = 0 → Raises s (exec .ret s) (.stackUnderflow (s.pc - 2))) ∧
    (16 < s.sp.toNat → exec .ret s = .fault .stackPointerBeyondStack)

/-! ## Index register and memory transfers -/

/-- R150: LDA sets `I` to the 12-bit address. -/
def Obligations.LoadIndexSetsI : Prop :=
  ∀ (nnn : Addr12) (s : State), encode (.lda nnn) = BitVec.ofNat 16 (0xA000 + nnn.toNat) ∧
    ∃ a : Word, exec (.lda nnn) s = .next { s with i := a } ∧ a.toNat = nnn.toNat

/-- LDSPR sets `I` to five times `V[x]`, not masked (R152; decisions D21, D1, D4). -/
def Obligations.LoadSpriteAddressSetsI : Prop :=
  ∀ (x : RegIdx) (s : State), ∃ a : Word, exec (.ldspr x) s = .next { s with i := a } ∧ a.toNat = s.v[x].toNat * 5

/-- ADDI adds `V[x]` into `I` modulo 2^16; VF is the carry out of bit 15 when the quirk is on, written last, and is untouched
when it is off (R151; decisions D17, D16). -/
def Obligations.AddIndexWrapsAndFlagsUnderTheQuirk : Prop :=
  ∀ (x : RegIdx) (s : State), ∃ a : Word, a.toNat = (s.i.toNat + s.v[x].toNat) % 65536 ∧
    (s.settings.setVfWhenOverflow = false → exec (.addi x) s = .next { s with i := a }) ∧
    (s.settings.setVfWhenOverflow = true → ∃ v' : Vector Byte 16,
      exec (.addi x) s = .next { s with i := a, v := v' } ∧
      v'[(15 : RegIdx)] = (if 0xFFFF < s.i.toNat + s.v[x].toNat then 1 else 0) ∧
      ∀ r : RegIdx, r ≠ 15 → v'[r] = s.v[r])

/-- LDB writes the hundreds, tens and ones of `V[x]` at `I`, `I + 1`, `I + 2` when those lie in memory; every other byte and
everything else is unchanged (R153; decision D13). -/
def Obligations.StoreDecimalDigits : Prop :=
  ∀ (x : RegIdx) (s : State), s.i.toNat + 2 < 4096 → ∃ m : Memory,
    exec (.ldb x) s = .next { s with mem := m } ∧
    (m.read s.i.toNat).toNat * 100 + (m.read (s.i.toNat + 1)).toNat * 10 + (m.read (s.i.toNat + 2)).toNat = s.v[x].toNat ∧
    (m.read s.i.toNat).toNat ≤ 2 ∧ (m.read (s.i.toNat + 1)).toNat ≤ 9 ∧ (m.read (s.i.toNat + 2)).toNat ≤ 9 ∧
    ∀ a, (a < s.i.toNat ∨ s.i.toNat + 3 ≤ a) → m.read a = s.mem.read a

/-- LDI stores `V[0]`..`V[x]` at `I` up when those lie in memory, and advances `I` by `x + 1` exactly when the increment quirk
is on; every other byte and everything else is unchanged (R154; decision D13). -/
def Obligations.StoreRegisterBlock : Prop :=
  ∀ (x : RegIdx) (s : State), s.i.toNat + x.val < 4096 → ∃ (m : Memory) (a : Word),
    exec (.ldi x) s = .next { s with mem := m, i := a } ∧
    a.toNat = (if s.settings.incrementIRegister = true then s.i.toNat + x.val + 1 else s.i.toNat) ∧
    (∀ r : RegIdx, r.val ≤ x.val → m.read (s.i.toNat + r.val) = s.v[r]) ∧
    ∀ b, (b < s.i.toNat ∨ s.i.toNat + x.val < b) → m.read b = s.mem.read b

/-- LDJ loads `V[0]`..`V[x]` from memory at `I` up when those addresses lie in memory, and advances `I` as LDI does; the other
registers and everything else are unchanged (R155; decision D13). -/
def Obligations.LoadRegisterBlock : Prop :=
  ∀ (x : RegIdx) (s : State), s.i.toNat + x.val < 4096 → ∃ (v' : Vector Byte 16) (a : Word),
    exec (.ldj x) s = .next { s with v := v', i := a } ∧
    a.toNat = (if s.settings.incrementIRegister = true then s.i.toNat + x.val + 1 else s.i.toNat) ∧
    (∀ r : RegIdx, r.val ≤ x.val → v'[r] = s.mem.read (s.i.toNat + r.val)) ∧
    ∀ r : RegIdx, x.val < r.val → v'[r] = s.v[r]

/-- LDB and LDI that reach an address 4096 or above raise `MemoryOutOfBounds` at the first such address; each byte before it
holds its old value or the one the instruction stores, every other byte and everything else is unchanged, `I` too
(R153, R154, R62; decision D25, U5, log 13). -/
def Obligations.FaultingStoresRaiseAtTheFirstAddress : Prop :=
  ∀ (x : RegIdx) (s : State),
    (4096 ≤ s.i.toNat + 2 → ∃ m : Memory,
      exec (.ldb x) s = .next { s with mem := m, freeCount := s.freeCount + 1,
                                       fault := some (.memoryOutOfBounds (max s.i.toNat 4096)) } ∧
      ∀ a, m.read a = s.mem.read a ∨
        (s.i.toNat ≤ a ∧ a < 4096 ∧
          m.read a = BitVec.ofNat 8 (if a = s.i.toNat then s.v[x].toNat / 100 else s.v[x].toNat / 10 % 10))) ∧
    (4096 ≤ s.i.toNat + x.val → ∃ m : Memory,
      exec (.ldi x) s = .next { s with mem := m, freeCount := s.freeCount + 1,
                                       fault := some (.memoryOutOfBounds (max s.i.toNat 4096)) } ∧
      ∀ a, m.read a = s.mem.read a ∨
        (s.i.toNat ≤ a ∧ a < 4096 ∧ ∃ r : RegIdx, r.val = a - s.i.toNat ∧ m.read a = s.v[r]))

/-- LDJ that reaches an address 4096 or above raises `MemoryOutOfBounds` at the first such address; each register loaded
before it holds its old value or the byte loaded, every other register and everything else is unchanged, `I` too (R155,
R62; decision D25, U5, log 13). -/
def Obligations.FaultingLoadRaisesAtTheFirstAddress : Prop :=
  ∀ (x : RegIdx) (s : State), 4096 ≤ s.i.toNat + x.val → ∃ v' : Vector Byte 16,
    exec (.ldj x) s = .next { s with v := v', freeCount := s.freeCount + 1,
                                     fault := some (.memoryOutOfBounds (max s.i.toNat 4096)) } ∧
    ∀ r : RegIdx, v'[r] = s.v[r] ∨
      (r.val ≤ x.val ∧ s.i.toNat + r.val < 4096 ∧ v'[r] = s.mem.read (s.i.toNat + r.val))

/-- What LDI stored, an LDJ of the same registers with `I` back at the block loads again: the registers are as they were
(R154, R155, R61). -/
def Obligations.LoadBlockReadsBackStoredBlock : Prop :=
  ∀ (x : RegIdx) (s t u w : State), s.i.toNat + x.val < 4096 → exec (.ldi x) s = .next t →
    u.i = s.i → u.mem = t.mem → exec (.ldj x) u = .next w →
    ∀ r : RegIdx, r.val ≤ x.val → w.v[r] = s.v[r]

/-! ## Display -/

/-- CLS turns every pixel off and sets `Dirty`, and changes nothing else (R171; its word 00E0 is decision D1, log 17). -/
def Obligations.ClearTurnsEveryPixelOff : Prop :=
  ∀ s : State, encode .cls = 0x00E0 ∧ ∃ g : Vector (Vector Bool 32) 64,
    exec .cls s = .next { s with pix := g, dirty := true } ∧ ∀ (cx : Fin 64) (cy : Fin 32), g[cx][cy] = false

/-- DRW whose rows lie in memory: exactly the pixels a 1 bit of the sprite falls on are flipped, `Dirty` is set exactly when
there is one, VF is 1 exactly when one of them was on, and nothing else changes (R172 to R181; decisions D16, D18, D19,
D20). -/
def Obligations.DrawXorsTheSprite : Prop :=
  ∀ (x y : RegIdx) (n : Fin 16) (s : State), n.val = 0 ∨ s.i.toNat + n.val ≤ 4096 →
    ∃ (v' : Vector Byte 16) (g : Vector (Vector Bool 32) 64) (d : Bool),
      exec (.drw x y n) s = .next { s with v := v', pix := g, dirty := d } ∧
      (∀ (cx : Fin 64) (cy : Fin 32), SpriteLights s x y n cx cy → g[cx][cy] = !s.pix[cx][cy]) ∧
      (∀ (cx : Fin 64) (cy : Fin 32), ¬ SpriteLights s x y n cx cy → g[cx][cy] = s.pix[cx][cy]) ∧
      (d = true ↔ s.dirty = true ∨ ∃ cx cy, SpriteLights s x y n cx cy) ∧
      (v'[(15 : RegIdx)] = 1 ∨ v'[(15 : RegIdx)] = 0) ∧
      (v'[(15 : RegIdx)] = 1 ↔ ∃ cx cy, SpriteLights s x y n cx cy ∧ s.pix[cx][cy] = true) ∧
      ∀ r : RegIdx, r ≠ 15 → v'[r] = s.v[r]

/-- DRW reads all its rows before it draws: when one lies outside memory it raises `MemoryOutOfBounds` at the first such
address and changes nothing else, clipped rows included (R172, R180; decision D19). -/
def Obligations.DrawOutsideMemoryChangesNothing : Prop :=
  ∀ (x y : RegIdx) (n : Fin 16) (s : State), 0 < n.val → 4096 < s.i.toNat + n.val →
    Raises s (exec (.drw x y n) s) (.memoryOutOfBounds (max s.i.toNat 4096))

/-- Drawing the same sprite twice restores every pixel, whatever VF the first draw left, unless VF is a coordinate (R173,
R177). -/
def Obligations.DrawingTwiceRestoresThePixels : Prop :=
  ∀ (x y : RegIdx) (n : Fin 16) (s t u : State), x ≠ 15 → y ≠ 15 → (n.val = 0 ∨ s.i.toNat + n.val ≤ 4096) →
    exec (.drw x y n) s = .next t → exec (.drw x y n) t = .next u → u.pix = s.pix

/-- No instruction but CLS and DRW changes a pixel, and no tick or host event does (R37, R184). -/
def Obligations.OnlyClearAndDrawChangePixels : Prop :=
  (∀ (i : Instr) (s t : State), exec i s = .next t → t.pix ≠ s.pix → i = .cls ∨ ∃ x y n, i = .drw x y n) ∧
  ∀ s t : State, step s = .next t → t.pix ≠ s.pix → ∃ w, s.fetch = .ok w ∧
    (decode w = .ok .cls ∨ ∃ x y n, decode w = .ok (.drw x y n))

/-- R186: `take_dirty` returns `Dirty` and clears it, and it is the only operation that clears it. -/
def Obligations.OnlyTheFlushClearsDirty : Prop :=
  (∀ s : State, s.takeDirty = (s.dirty, { s with dirty := false })) ∧
  (∀ s : State, s.Running → s.Delivers .flush → step s = .next { s.takeEvent with dirty := false }) ∧
  ∀ s t : State, step s = .next t → s.dirty = true → t.dirty = false → s.Delivers .flush

/-! ## Keyboard and timers -/

/-- SKP and SKNP skip by the key named by `V[x]`; a value above 15 names no key and raises `KeyIndexOutOfRange` with nothing
else changed (R194, R196, R197; decision D15). -/
def Obligations.KeySkipsReadTheNamedKey : Prop :=
  ∀ (x : RegIdx) (s : State),
    (∀ h : s.v[x].toNat < 16,
      exec (.skp x) s = .next { s with pc := if s.key[s.v[x].toNat] = true then s.pc + 2 else s.pc } ∧
      exec (.sknp x) s = .next { s with pc := if s.key[s.v[x].toNat] = true then s.pc else s.pc + 2 }) ∧
    (16 ≤ s.v[x].toNat → Raises s (exec (.skp x) s) (.keyIndexOutOfRange s.v[x]) ∧
      Raises s (exec (.sknp x) s) (.keyIndexOutOfRange s.v[x]))

/-- LDT reads `DT` into `V[x]`, LDF writes `V[x]` to `DT`, LDS writes `V[x]` to `ST` (R198, R199, R200; their low bytes are
decision D1, log 17). -/
def Obligations.TimerAccessMovesTheByte : Prop :=
  ∀ (x : RegIdx) (s : State),
    encode (.ldt x) = BitVec.ofNat 16 (0xF007 + x.val * 0x100) ∧ WritesReg s (exec (.ldt x) s) x s.dt ∧
    encode (.ldf x) = BitVec.ofNat 16 (0xF015 + x.val * 0x100) ∧ exec (.ldf x) s = .next { s with dt := s.v[x] } ∧
    encode (.lds x) = BitVec.ofNat 16 (0xF018 + x.val * 0x100) ∧ exec (.lds x) s = .next { s with st := s.v[x] }

/-- LDK with a captured key writes the key to `V[x]` and clears the latch; otherwise the latch is armed and `pc` is back at
the LDK itself, with `V[x]` and everything else unchanged (R195, R202; decision D22). -/
def Obligations.KeyWaitCompletesOrStalls : Prop :=
  ∀ (x : RegIdx) (s : State),
    (∀ k : KeyIdx, s.wait = .captured k → ∃ v' : Vector Byte 16,
      exec (.ldk x) s = .next { s with v := v', wait := .none } ∧ v'[x].toNat = k.val ∧
      ∀ r : RegIdx, r ≠ x → v'[r] = s.v[r]) ∧
    (s.wait = .none ∨ s.wait = .armed → exec (.ldk x) s = .next { s with wait := .armed, pc := s.pc - 2 })

/-- `KeyDown(k)` sets `Key[k]`, and captures `k` exactly when the latch is armed with no key captured; nothing else changes
(R190; decision D23). -/
def Obligations.KeyDownCapturesTheFirstKey : Prop :=
  ∀ (s : State) (k : KeyIdx), s.Running → s.Delivers (.keyDown k) →
    ∃ key' : Vector Bool 16,
      step s = .next { s.takeEvent with key := key', wait := if s.wait = .armed then .captured k else s.wait } ∧
      key'[k] = true ∧ ∀ j : KeyIdx, j ≠ k → key'[j] = s.key[j]

/-- R191: `KeyUp(k)` clears `Key[k]`, and cancels the capture of `k` exactly when `k` is the captured key; nothing else
changes. -/
def Obligations.KeyUpCancelsItsCapture : Prop :=
  ∀ (s : State) (k : KeyIdx), s.Running → s.Delivers (.keyUp k) →
    ∃ key' : Vector Bool 16,
      step s = .next { s.takeEvent with key := key', wait := if s.wait = .captured k then .armed else s.wait } ∧
      key'[k] = false ∧ ∀ j : KeyIdx, j ≠ k → key'[j] = s.key[j]

/-- A delay tick decrements `DT` toward, not below, 0 (R222). In the same step the delay clock's recorded instant moves on by
one period, which is the model's reading of R39, R227 and R229 (log 10), and the event is taken (log 9); nothing else changes. -/
def Obligations.DelayTickCountsDown : Prop :=
  ∀ s : State, s.Running → s.Delivers (.fire .delay) → ∃ b : Byte,
    step s = .next { s.takeEvent with
      dt := b
      delayClock := { s.delayClock with last := s.delayClock.last + s.delayClock.period } } ∧
    b.toNat = s.dt.toNat - 1

/-- A sound tick decrements `ST` toward 0 and sends the tone: on exactly when `ST` is still non-zero and `mute` is off
(R223, R224; decision D29). In the same step the sound clock's recorded instant moves on by one period, which is the model's
reading of R39, R227 and R229 (log 10), and the event is taken (log 9); nothing else changes. -/
def Obligations.SoundTickCountsDownAndDrivesTheTone : Prop :=
  ∀ s : State, s.Running → s.Delivers (.fire .sound) → ∃ (b : Byte) (on : Bool),
    step s = .next { s.takeEvent with
      st := b
      tone := on
      soundClock := { s.soundClock with last := s.soundClock.last + s.soundClock.period } } ∧
    b.toNat = s.st.toNat - 1 ∧ (on = true ↔ b ≠ 0 ∧ s.settings.mute = false)

/-- R227: a poll fires exactly when a whole period has elapsed since the recorded instant, which then advances by exactly one
period, not to `now`. -/
def Obligations.ClockTickAdvancesByOnePeriod : Prop :=
  ∀ (c : Clock) (now : Nat),
    (c.period ≤ now - c.last → c.tick now = (true, { c with last := c.last + c.period })) ∧
    (¬ c.period ≤ now - c.last → c.tick now = (false, c))

/-- Whatever the poll times up to `T`, a clock recorded at `t0` fires at most `(T - t0) / period` times, and its recorded
instant is `t0` plus one period for each fire (R228). -/
def Obligations.ClockFiresAtMostOncePerPeriod : Prop :=
  ∀ (c : Clock) (times : List Nat) (T : Nat), 0 < c.period → (∀ now ∈ times, now ≤ T) →
    (c.pollAll times).2 = { c with last := c.last + (c.pollAll times).1 * c.period } ∧
    (c.pollAll times).1 ≤ (T - c.last) / c.period

/-- The outer loop delivers the step listed first and, with none listed, the one the free stream gives next, whatever it is, so
no order and no number of ticks and events is shut out; taking a step touches the list and the count alone. A poll of a clock
is that clock's fire when it is due, and nothing otherwise; `None` and `Quit` change no core state, and after `Quit` no step
does (R192, R227, R229, R230, R233; decision D12, log 9, log 10, log 11). -/
def Obligations.OuterLoopDeliversEveryInterleaving : Prop :=
  (∀ (s : State) (e : HostEvent) (rest : List HostEvent), s.schedule = e :: rest →
    s.Delivers e ∧ s.takeEvent = { s with schedule := rest }) ∧
  (∀ s : State, s.schedule = [] →
    s.Delivers (Config.outerLoopEvent s.eventCount) ∧ s.takeEvent = { s with eventCount := s.eventCount + 1 }) ∧
  ∀ s : State, s.Running →
    (∀ c now, s.Delivers (.poll c now) → (s.clock c).due now = true →
      step s = step { s.takeEvent with schedule := .fire c :: s.takeEvent.schedule }) ∧
    (∀ c now, s.Delivers (.poll c now) → (s.clock c).due now = false → step s = .next s.takeEvent) ∧
    (s.Delivers .noEvent → step s = .next s.takeEvent) ∧
    (s.Delivers .quit → step s = .next s)

/-! ## Load, reset, memory -/

/-- A program that fits lies in memory from 0x200 and every other byte is as before; one that does not fit, or cannot be
read, is fatal before any cycle runs (R241, R242; decision D33). -/
def Obligations.LoadPlacesTheProgramOrIsFatal : Prop :=
  ∀ (s : State) (bytes : List Byte),
    (0x200 + bytes.length ≤ 4096 → ∃ m : Memory, s.load (some bytes) = { s with mem := m } ∧
      (∀ (k : Nat) (h : k < bytes.length), m.read (0x200 + k) = bytes[k]) ∧
      ∀ a, (a < 0x200 ∨ 0x200 + bytes.length ≤ a) → m.read a = s.mem.read a) ∧
    (4096 < 0x200 + bytes.length →
      s.load (some bytes) = { s with fault := some (.loadTooLarge bytes.length) } ∧
      step (s.load (some bytes)) = .fault (.stopped (.loadTooLarge bytes.length))) ∧
    (s.load none = { s with fault := some .loadUnreadable } ∧ step (s.load none) = .fault (.stopped .loadUnreadable))

/-- The state after construction and the load of any program that fits, before the first cycle, as R43 lists it, with every
parameter open: the registers, the font, the program and the rest of memory, the display, the keys, the latches, and each
clock at its own construction instant (decisions D5 to D8, D11, D25; glyphs 1 to F are general knowledge G3, log 5; the tone
is the model's own choice, log 7). `State.reset` is that state for the model's own parameters (log 2, log 8) and no program. -/
def Obligations.BootStateIsTheResetTable : Prop :=
  (∀ (p : Config.Params) (bytes : List Byte), 0x200 + bytes.length ≤ 4096 →
    let s := State.boot p (some bytes)
    (∀ r : RegIdx, s.v[r] = 0) ∧ s.i = 0 ∧ s.pc = 0x200 ∧ s.sp = 0 ∧ (∀ k : Fin 16, s.stack[k] = 0) ∧
    s.dt = 0 ∧ s.st = 0 ∧
    (∀ (d : Fin 16) (k : Fin 5), (glyph d)[k.val]? = some (s.mem.read (d.val * 5 + k.val))) ∧
    (∀ (k : Nat) (h : k < bytes.length), s.mem.read (0x200 + k) = bytes[k]) ∧
    (∀ a, 80 ≤ a → (a < 0x200 ∨ 0x200 + bytes.length ≤ a) → s.mem.read a = 0) ∧
    (∀ (cx : Fin 64) (cy : Fin 32), s.pix[cx][cy] = false) ∧ s.dirty = true ∧ (∀ k : KeyIdx, s.key[k] = false) ∧
    s.wait = .none ∧ s.suspended = false ∧ s.tone = false ∧ s.fault = none ∧
    s.settings = p.settings ∧ s.sysFatal = p.sysFatal ∧
    s.cpuClock = ⟨p.cpuPeriod, p.cpuConstructedAt⟩ ∧ s.delayClock = ⟨p.delayPeriod, p.delayConstructedAt⟩ ∧
    s.soundClock = ⟨p.soundPeriod, p.soundConstructedAt⟩) ∧
  State.reset = State.boot Config.Params.documented (some [])

/-- The font is in memory before the first cycle: glyph 0 as the source quotes it, glyph F as the spec supplies it (R59;
general knowledge G3, log 5), and LDSPR of a digit points `I` at its glyph's first byte. -/
def Obligations.FontIsInMemoryAtReset : Prop :=
  State.reset.mem.readBlock 0x000 5 = [0xF0, 0x90, 0x90, 0x90, 0xF0] ∧
  State.reset.mem.readBlock 0x04B 5 = [0xF0, 0x80, 0xF0, 0x80, 0x80] ∧
  ∀ d : Fin 16, State.reset.mem.readBlock (spriteAddress (BitVec.ofNat 8 d.val)).toNat 5 = glyph d

/-- Instruction words are big-endian and fetch reads the memory stores write: bytes `hi`, `lo` written at `pc`, `pc + 1` are
fetched as the word `hi ++ lo`, at an odd address too (R51, R52, R56, R65; decision D24). -/
def Obligations.FetchSeesStoredBytesBigEndian : Prop :=
  ∀ (s : State) (hi lo : Byte), s.pc.toNat + 1 < 4096 → ∃ w : Word,
    State.fetch { s with mem := (s.mem.write s.pc.toNat hi).write (s.pc.toNat + 1) lo } = .ok w ∧
    w.toNat = hi.toNat * 256 + lo.toNat

/-! ## The whole machine -/

/-- Every step keeps memory in its canonical form (R50). -/
def Obligations.EveryStepKeepsMemoryCanonical : Prop :=
  ∀ s t : State, s.mem.wf → step s = .next t → t.mem.wf

/-- Every step, of the CPU, a timer or the host, keeps the bounds: at most 16 return addresses, none above 0x1000, and `pc` at
most 0x10FE, so `pc` never wraps (R23, R26, R29, R33; decisions D14, D30). -/
def Obligations.BoundedStatesStayBounded : Prop :=
  ∀ s t : State, s.Bounded → step s = .next t → t.Bounded

/-- While the wait latch is armed, the word at `pc` is an LDK: every step keeps it so, and a CPU cycle then runs that LDK and
no other instruction (R41, R99, R202). -/
def Obligations.SuspendedCpuRefetchesItsLdk : Prop :=
  (∀ s t : State, s.WaitsAtLdk → step s = .next t → t.WaitsAtLdk) ∧
  ∀ s : State, s.WaitsAtLdk → s.wait ≠ .none → ∃ x, cycle s = exec (.ldk x) { s with pc := s.pc + 2 }

/-- Reset meets the three invariants (the values are R43's: decisions D5, D6, D7; the clocks' periods are the model's own, log 8,
and only that they are positive is used). -/
def Obligations.ResetMeetsTheInvariants : Prop :=
  State.reset.mem.wf ∧ State.reset.Bounded ∧ State.reset.WaitsAtLdk

/-- No step changes the Settings, `SYS_FATAL` or a clock's period, and a clock's recorded instant moves by one period or not at
all (R6, R38, R39, R42). -/
def Obligations.ParametersNeverChange : Prop :=
  ∀ s t : State, step s = .next t → t.settings = s.settings ∧ t.sysFatal = s.sysFatal ∧
    ∀ c : ClockId, (t.clock c).period = (s.clock c).period ∧
      ((t.clock c).last = (s.clock c).last ∨ (t.clock c).last = (s.clock c).last + (s.clock c).period)

/-- Only CALL writes the call stack, and only CALL and RET move `sp`: CALL up by one, RET down by one (R29, R33). -/
def Obligations.OnlyCallWritesTheStack : Prop :=
  (∀ (i : Instr) (s t : State), exec i s = .next t →
    (t.stack ≠ s.stack → ∃ nnn, i = .call nnn) ∧
    (t.sp ≠ s.sp → (i = .ret ∧ t.sp + 1 = s.sp) ∨ ∃ nnn, i = .call nnn ∧ t.sp = s.sp + 1)) ∧
  ∀ s t : State, step s = .next t → t.stack ≠ s.stack ∨ t.sp ≠ s.sp → ∃ w, s.fetch = .ok w ∧
    ((decode w = .ok .ret ∧ t.stack = s.stack ∧ t.sp + 1 = s.sp) ∨
      ∃ nnn, decode w = .ok (.call nnn) ∧ t.sp = s.sp + 1)

/-- The key table is written only by the host's key events; no instruction, tick or other event writes it (R35). -/
def Obligations.OnlyKeyEventsWriteTheKeyTable : Prop :=
  (∀ (i : Instr) (s t : State), exec i s = .next t → t.key = s.key) ∧
  ∀ s t : State, step s = .next t → t.key ≠ s.key →
    ∃ k, s.Delivers (.keyDown k) ∨ s.Delivers (.keyUp k)

/-- Memory is written only by LDB and LDI, and only at `I` up to `I + 15`; no tick and no host event of the run writes it
(R50, R64, R157). -/
def Obligations.OnlyStoresWriteMemory : Prop :=
  (∀ (i : Instr) (s t : State), exec i s = .next t → t.mem ≠ s.mem → ∃ x, i = .ldb x ∨ i = .ldi x) ∧
  (∀ (i : Instr) (s t : State) (a : Nat), exec i s = .next t → t.mem.read a ≠ s.mem.read a →
    s.i.toNat ≤ a ∧ a ≤ s.i.toNat + 15 ∧ a < 4096) ∧
  ∀ s t : State, step s = .next t → t.mem ≠ s.mem →
    ∃ w x, s.fetch = .ok w ∧ (decode w = .ok (.ldb x) ∨ decode w = .ok (.ldi x))

/-- R97: a CPU cycle does not advance the timers; of the instructions only LDF writes `DT` and only LDS writes `ST`. -/
def Obligations.CyclesDoNotAdvanceTheTimers : Prop :=
  ∀ s t : State, cycle s = .next t →
    (t.dt ≠ s.dt → ∃ w x, s.fetch = .ok w ∧ decode w = .ok (.ldf x) ∧ t.dt = s.v[x]) ∧
    (t.st ≠ s.st → ∃ w x, s.fetch = .ok w ∧ decode w = .ok (.lds x) ∧ t.st = s.v[x])

/-- VF is written as a side effect only by ADD Vx, Vy, SUB, SUBN, SHR, SHL, DRW, and ADDI under its quirk; every other
instruction leaves VF unchanged unless VF is its destination (R21, R247; decision D16). -/
def Obligations.FlagSideEffectsAreTheListedOnes : Prop :=
  ∀ (i : Instr) (s t : State), exec i s = .next t → t.v[(15 : RegIdx)] ≠ s.v[(15 : RegIdx)] →
    (∃ x y, i = .addReg x y ∨ i = .sub x y ∨ i = .subn x y ∨ i = .shr x y ∨ i = .shl x y) ∨
    (∃ x y n, i = .drw x y n) ∨ (∃ x, i = .addi x ∧ s.settings.setVfWhenOverflow = true) ∨
    (∃ kk, i = .ldImm 15 kk ∨ i = .addImm 15 kk ∨ i = .rnd 15 kk) ∨
    (∃ y, i = .ldReg 15 y ∨ i = .or 15 y ∨ i = .and 15 y ∨ i = .xor 15 y) ∨
    i = .ldt 15 ∨ i = .ldk 15 ∨ i = .ldj 15

/-- From a bounded state every instruction answers a next state: nothing in the execute phase ends a run but a fault the spec
names, which is latched in that next state (R81, R94, R98). -/
def Obligations.EveryInstructionAnswersANextState : Prop :=
  ∀ (i : Instr) (s : State), s.Bounded → ∃ t, exec i s = .next t
end

