-- ==== Sys2Proof/Laws/Memory.lean ====
section
/-! SUPPORT. The laws of memory: a read after a write, the canonical form kept by every memory operation, and what the block
operations read and write. -/

namespace Sys2Proof.Machine

open Sys2Proof.Config (memSize)

/-! ## One byte -/

theorem Memory.lookup_insert_self (a : Nat) (b : Byte) (m : Memory) :
    Memory.lookup a (Memory.insert a b m) = some b := by
  induction m with
  | nil => simp [Memory.insert, Memory.lookup]
  | cons c m ih =>
    obtain ⟨k, c⟩ := c
    unfold Memory.insert
    split
    · simp [Memory.lookup]
    · split
      · simp [Memory.lookup]
      · simp [Memory.lookup, ih]; omega

theorem Memory.lookup_insert_ne {a a' : Nat} (b : Byte) (m : Memory) (h : a' ≠ a) :
    Memory.lookup a' (Memory.insert a b m) = Memory.lookup a' m := by
  induction m with
  | nil => simp [Memory.insert, Memory.lookup, h.symm]
  | cons c m ih =>
    obtain ⟨k, c⟩ := c
    unfold Memory.insert
    split
    · simp [Memory.lookup, h.symm]
    · split
      · next hk => subst hk; simp [Memory.lookup, h.symm]
      · simp [Memory.lookup, ih]

theorem Memory.lookup_erase_self (a : Nat) (m : Memory) : Memory.lookup a (Memory.erase a m) = none := by
  induction m with
  | nil => rfl
  | cons c m ih =>
    obtain ⟨k, c⟩ := c
    by_cases hk : k = a <;> simp_all [Memory.erase, Memory.lookup]

theorem Memory.lookup_erase_ne {a a' : Nat} (m : Memory) (h : a' ≠ a) :
    Memory.lookup a' (Memory.erase a m) = Memory.lookup a' m := by
  induction m with
  | nil => rfl
  | cons c m ih =>
    obtain ⟨k, c⟩ := c
    by_cases hk : k = a
    · subst hk; simp_all [Memory.erase, Memory.lookup, h.symm]
    · simp_all [Memory.erase, Memory.lookup]

/-- A read gives the last byte written at that address (R61). -/
@[simp] theorem Memory.read_write_self (m : Memory) (a : Nat) (b : Byte) : (m.write a b).read a = b := by
  unfold Memory.write Memory.read
  split
  · next h => simp [Memory.lookup_erase_self, h]
  · simp [Memory.lookup_insert_self]

/-- A write changes no other address. -/
theorem Memory.read_write_ne (m : Memory) {a a' : Nat} (b : Byte) (h : a' ≠ a) :
    (m.write a b).read a' = m.read a' := by
  unfold Memory.write Memory.read
  split
  · simp [Memory.lookup_erase_ne m h]
  · simp [Memory.lookup_insert_ne b m h]

theorem Memory.read_nil (a : Nat) : Memory.read [] a = Memory.resetByte a := rfl

/-! ## The canonical form -/

theorem Memory.wf_nil : Memory.wf [] := by simp [Memory.wf]

theorem Memory.mem_insert {a : Nat} {b : Byte} {m : Memory} {c : Host.Cell} (h : c ∈ Memory.insert a b m) :
    c = (a, b) ∨ c ∈ m := by
  induction m with
  | nil => simp_all [Memory.insert]
  | cons d m ih =>
    obtain ⟨k, d⟩ := d
    unfold Memory.insert at h
    split at h
    · simp_all
    · split at h
      · rcases List.mem_cons.1 h with h | h <;> simp [h]
      · rcases List.mem_cons.1 h with h | h
        · simp [h]
        · rcases ih h with h | h <;> simp [h]

theorem Memory.pairwise_insert (a : Nat) (b : Byte) {m : Memory} (h : m.Pairwise fun c d => c.1 < d.1) :
    (Memory.insert a b m).Pairwise fun c d => c.1 < d.1 := by
  induction m with
  | nil => simp [Memory.insert]
  | cons c m ih =>
    obtain ⟨k, c⟩ := c
    obtain ⟨h1, h2⟩ := List.pairwise_cons.1 h
    unfold Memory.insert
    split
    · next hk =>
      refine List.pairwise_cons.2 ⟨fun d hd => ?_, h⟩
      rcases List.mem_cons.1 hd with rfl | hd
      · exact hk
      · exact hk.trans (h1 d hd)
    · split
      · next hk => subst hk; exact List.pairwise_cons.2 ⟨h1, h2⟩
      · refine List.pairwise_cons.2 ⟨fun d hd => ?_, ih h2⟩
        rcases Memory.mem_insert hd with rfl | hd
        · show k < a; omega
        · exact h1 d hd

/-- A write in the address space keeps the canonical form. -/
theorem Memory.wf_write {m : Memory} {a : Nat} (b : Byte) (ha : a < memSize) (h : m.wf) : (m.write a b).wf := by
  unfold Memory.write
  split
  · refine ⟨h.1.sublist List.filter_sublist, fun c hc => h.2 c (List.mem_filter.1 hc).1⟩
  · next hb =>
    refine ⟨Memory.pairwise_insert a b h.1, fun c hc => ?_⟩
    rcases Memory.mem_insert hc with rfl | hc
    · exact ⟨ha, hb⟩
    · exact h.2 c hc

/-- A block write keeps the canonical form: it writes no address outside memory. -/
theorem Memory.wf_writeWhere (lands : Nat → Bool) (base : Nat) (bs : List Byte) {m : Memory} (h : m.wf) :
    (Memory.writeWhere lands base bs m).wf := by
  induction bs generalizing base m with
  | nil => exact h
  | cons b bs ih =>
    unfold Memory.writeWhere
    refine ih _ ?_
    split
    · next hc => exact Memory.wf_write b (by simp at hc; exact hc.1) h
    · exact h

theorem Memory.wf_writeBlock (base : Nat) (bs : List Byte) {m : Memory} (h : m.wf) : (Memory.writeBlock base bs m).wf :=
  Memory.wf_writeWhere _ base bs h

theorem Memory.lookup_of_mem {a : Nat} {b : Byte} {m : Memory} (hp : m.Pairwise fun c d => c.1 < d.1)
    (h : (a, b) ∈ m) : Memory.lookup a m = some b := by
  induction m with
  | nil => simp at h
  | cons c m ih =>
    obtain ⟨k, d⟩ := c
    obtain ⟨h1, h2⟩ := List.pairwise_cons.1 hp
    rcases List.mem_cons.1 h with h | h
    · cases h; simp [Memory.lookup]
    · have hlt : k < a := h1 _ h
      simp only [Memory.lookup]
      rw [if_neg (by omega), ih h2 h]

theorem Memory.mem_of_lookup {a : Nat} {b : Byte} {m : Memory} (h : Memory.lookup a m = some b) : (a, b) ∈ m := by
  induction m with
  | nil => simp [Memory.lookup] at h
  | cons c m ih =>
    obtain ⟨k, d⟩ := c
    simp only [Memory.lookup] at h
    split at h
    · next e => cases h; subst e; simp
    · simp [ih h]

/-- What a canonical memory lists is what it reads, where that is not the reset contents. -/
theorem Memory.mem_iff_read {m : Memory} (h : m.wf) (a : Nat) (b : Byte) :
    (a, b) ∈ m ↔ m.read a = b ∧ b ≠ Memory.resetByte a := by
  constructor
  · intro hm
    exact ⟨by simp [Memory.read, Memory.lookup_of_mem h.1 hm], (h.2 _ hm).2⟩
  · rintro ⟨hr, hb⟩
    unfold Memory.read at hr
    cases hl : Memory.lookup a m with
    | none => rw [hl] at hr; exact absurd hr.symm hb
    | some c => rw [hl] at hr; simp at hr; subst hr; exact Memory.mem_of_lookup hl

/-- Two canonical memories that read alike at every address are the same data. -/
theorem Memory.eq_of_read_eq {m n : Memory} (hm : m.wf) (hn : n.wf) (h : ∀ a, m.read a = n.read a) : m = n := by
  have hmem : ∀ c, c ∈ m ↔ c ∈ n := by
    rintro ⟨a, b⟩; rw [Memory.mem_iff_read hm, Memory.mem_iff_read hn, h]
  have nodup : ∀ {m : Memory}, m.wf → m.Nodup := fun {m} h => h.1.imp (by rintro c d h rfl; omega)
  refine ((List.perm_ext_iff_of_nodup (nodup hm) (nodup hn)).2 hmem).eq_of_pairwise ?_ hm.1 hn.1
  intro a b _ _ h1 h2
  omega

/-! ## Blocks -/

/-- What a block write leaves at an address: the byte of the block that falls on it, where that lies in memory and lands;
else the old byte. -/
theorem Memory.read_writeWhere (lands : Nat → Bool) (base : Nat) (bs : List Byte) (m : Memory) (a : Nat) :
    (Memory.writeWhere lands base bs m).read a =
      if h : base ≤ a ∧ a - base < bs.length then
        if a < memSize ∧ lands a = true then bs[a - base]'h.2 else m.read a
      else m.read a := by
  induction bs generalizing base m with
  | nil => simp [Memory.writeWhere]
  | cons b bs ih =>
    simp only [Memory.writeWhere, ih]
    rcases Nat.lt_trichotomy a base with hlt | rfl | hgt
    · rw [dif_neg (by omega), dif_neg (by omega)]
      split
      · exact Memory.read_write_ne m b (by omega)
      · rfl
    · rw [dif_neg (by omega), dif_pos (by simp)]
      by_cases h : a < memSize ∧ lands a = true
      · simp [h]
      · rw [if_neg h, if_neg (by simpa using h)]
    · have hread : (if (decide (base < memSize) && lands base) = true then m.write base b else m).read a = m.read a := by
        split
        · exact Memory.read_write_ne m b (by omega)
        · rfl
      rw [hread]
      by_cases h : a - base < bs.length + 1
      · rw [dif_pos ⟨by omega, by omega⟩, dif_pos ⟨by omega, by simpa using h⟩]
        have hidx : a - base = a - (base + 1) + 1 := by omega
        simp only [hidx, List.getElem_cons_succ]
      · rw [dif_neg (by omega), dif_neg (by simp; omega)]

/-- A block write that lies in memory puts the block there and leaves every other address. -/
theorem Memory.read_writeBlock {base : Nat} {bs : List Byte} (m : Memory) (hin : base + bs.length ≤ memSize) (a : Nat) :
    (Memory.writeBlock base bs m).read a =
      if h : base ≤ a ∧ a - base < bs.length then bs[a - base]'h.2 else m.read a := by
  rw [Memory.writeBlock, Memory.read_writeWhere]
  split
  · next h => rw [if_pos ⟨by omega, rfl⟩]
  · rfl

/-- No address of the range is outside memory exactly when the range is empty or ends in memory. -/
theorem firstOutOfBounds_eq_none {base n : Nat} :
    firstOutOfBounds base n = none ↔ n = 0 ∨ base + n ≤ memSize := by
  induction n generalizing base with
  | zero => simp [firstOutOfBounds]
  | succ n ih =>
    unfold firstOutOfBounds
    split
    · simp; omega
    · rw [ih]; omega

/-- The first address outside memory is `base` itself or 4096. -/
theorem firstOutOfBounds_eq_some {base n : Nat} (h0 : 0 < n) (h : memSize < base + n) :
    firstOutOfBounds base n = some (max base memSize) := by
  induction n generalizing base with
  | zero => omega
  | succ n ih =>
    unfold firstOutOfBounds
    split
    · next hb => simp [Nat.max_eq_left hb]
    · rw [ih (by omega) (by omega)]; congr 1; omega

theorem firstOutOfBounds_max {base n a : Nat} (h : firstOutOfBounds base n = some a) :
    0 < n ∧ memSize < base + n ∧ a = max base memSize := by
  have hn : ¬ (n = 0 ∨ base + n ≤ memSize) := fun hc => by simp [firstOutOfBounds_eq_none.2 hc] at h
  refine ⟨by omega, by omega, ?_⟩
  have := firstOutOfBounds_eq_some (base := base) (n := n) (by omega) (by omega)
  simpa [this] using h.symm

theorem Memory.length_readBlock (m : Memory) (base n : Nat) : (m.readBlock base n).length = n := by
  induction n generalizing base with
  | zero => rfl
  | succ n ih => simp [Memory.readBlock, ih]

theorem Memory.getElem_readBlock (m : Memory) (base n k : Nat) (h : k < (m.readBlock base n).length) :
    (m.readBlock base n)[k] = m.read (base + k) := by
  induction n generalizing base k with
  | zero => simp [Memory.readBlock] at h
  | succ n ih =>
    cases k with
    | zero => simp [Memory.readBlock]
    | succ k => simp [Memory.readBlock, ih]; congr 1; omega

/-- The registers after a block load, one by one (R155). -/
theorem getElem_loadedRegs (s : State) (lands : Nat → Bool) (base : Nat) (last r : RegIdx) :
    (loadedRegs s lands base last)[r] =
      if r.val ≤ last.val ∧ base + r.val < memSize ∧ lands r.val = true then s.mem.read (base + r.val) else s.v[r] := by
  simp [loadedRegs]

end Sys2Proof.Machine
end

