-- ==== Sys2Proof/Laws/State.lean ====
section
/-! SUPPORT. The small lemmas of the state's updates: each update writes its own field and leaves every other as it was. All
hold by rfl and are simp lemmas, so no proof unfolds a record update. Two updates of one field keep the last. -/

namespace Sys2Proof.Machine

@[simp] theorem State.withV_v (s : State) (a) : (s.withV a).v = a := rfl
@[simp] theorem State.withV_i (s : State) (a) : (s.withV a).i = s.i := rfl
@[simp] theorem State.withV_pc (s : State) (a) : (s.withV a).pc = s.pc := rfl
@[simp] theorem State.withV_sp (s : State) (a) : (s.withV a).sp = s.sp := rfl
@[simp] theorem State.withV_stack (s : State) (a) : (s.withV a).stack = s.stack := rfl
@[simp] theorem State.withV_dt (s : State) (a) : (s.withV a).dt = s.dt := rfl
@[simp] theorem State.withV_st (s : State) (a) : (s.withV a).st = s.st := rfl
@[simp] theorem State.withV_mem (s : State) (a) : (s.withV a).mem = s.mem := rfl
@[simp] theorem State.withV_key (s : State) (a) : (s.withV a).key = s.key := rfl
@[simp] theorem State.withV_wait (s : State) (a) : (s.withV a).wait = s.wait := rfl
@[simp] theorem State.withV_pix (s : State) (a) : (s.withV a).pix = s.pix := rfl
@[simp] theorem State.withV_dirty (s : State) (a) : (s.withV a).dirty = s.dirty := rfl
@[simp] theorem State.withV_tone (s : State) (a) : (s.withV a).tone = s.tone := rfl
@[simp] theorem State.withV_fault (s : State) (a) : (s.withV a).fault = s.fault := rfl
@[simp] theorem State.withV_settings (s : State) (a) : (s.withV a).settings = s.settings := rfl
@[simp] theorem State.withV_sysFatal (s : State) (a) : (s.withV a).sysFatal = s.sysFatal := rfl
@[simp] theorem State.withV_cpuClock (s : State) (a) : (s.withV a).cpuClock = s.cpuClock := rfl
@[simp] theorem State.withV_delayClock (s : State) (a) : (s.withV a).delayClock = s.delayClock := rfl
@[simp] theorem State.withV_soundClock (s : State) (a) : (s.withV a).soundClock = s.soundClock := rfl
@[simp] theorem State.withV_freeCount (s : State) (a) : (s.withV a).freeCount = s.freeCount := rfl
@[simp] theorem State.withV_schedule (s : State) (a) : (s.withV a).schedule = s.schedule := rfl
@[simp] theorem State.withV_eventCount (s : State) (a) : (s.withV a).eventCount = s.eventCount := rfl
@[simp] theorem State.withV_withV (s : State) (a b) : (s.withV a).withV b = s.withV b := rfl

@[simp] theorem State.withI_v (s : State) (a) : (s.withI a).v = s.v := rfl
@[simp] theorem State.withI_i (s : State) (a) : (s.withI a).i = a := rfl
@[simp] theorem State.withI_pc (s : State) (a) : (s.withI a).pc = s.pc := rfl
@[simp] theorem State.withI_sp (s : State) (a) : (s.withI a).sp = s.sp := rfl
@[simp] theorem State.withI_stack (s : State) (a) : (s.withI a).stack = s.stack := rfl
@[simp] theorem State.withI_dt (s : State) (a) : (s.withI a).dt = s.dt := rfl
@[simp] theorem State.withI_st (s : State) (a) : (s.withI a).st = s.st := rfl
@[simp] theorem State.withI_mem (s : State) (a) : (s.withI a).mem = s.mem := rfl
@[simp] theorem State.withI_key (s : State) (a) : (s.withI a).key = s.key := rfl
@[simp] theorem State.withI_wait (s : State) (a) : (s.withI a).wait = s.wait := rfl
@[simp] theorem State.withI_pix (s : State) (a) : (s.withI a).pix = s.pix := rfl
@[simp] theorem State.withI_dirty (s : State) (a) : (s.withI a).dirty = s.dirty := rfl
@[simp] theorem State.withI_tone (s : State) (a) : (s.withI a).tone = s.tone := rfl
@[simp] theorem State.withI_fault (s : State) (a) : (s.withI a).fault = s.fault := rfl
@[simp] theorem State.withI_settings (s : State) (a) : (s.withI a).settings = s.settings := rfl
@[simp] theorem State.withI_sysFatal (s : State) (a) : (s.withI a).sysFatal = s.sysFatal := rfl
@[simp] theorem State.withI_cpuClock (s : State) (a) : (s.withI a).cpuClock = s.cpuClock := rfl
@[simp] theorem State.withI_delayClock (s : State) (a) : (s.withI a).delayClock = s.delayClock := rfl
@[simp] theorem State.withI_soundClock (s : State) (a) : (s.withI a).soundClock = s.soundClock := rfl
@[simp] theorem State.withI_freeCount (s : State) (a) : (s.withI a).freeCount = s.freeCount := rfl
@[simp] theorem State.withI_schedule (s : State) (a) : (s.withI a).schedule = s.schedule := rfl
@[simp] theorem State.withI_eventCount (s : State) (a) : (s.withI a).eventCount = s.eventCount := rfl
@[simp] theorem State.withI_withI (s : State) (a b) : (s.withI a).withI b = s.withI b := rfl

@[simp] theorem State.withPc_v (s : State) (a) : (s.withPc a).v = s.v := rfl
@[simp] theorem State.withPc_i (s : State) (a) : (s.withPc a).i = s.i := rfl
@[simp] theorem State.withPc_pc (s : State) (a) : (s.withPc a).pc = a := rfl
@[simp] theorem State.withPc_sp (s : State) (a) : (s.withPc a).sp = s.sp := rfl
@[simp] theorem State.withPc_stack (s : State) (a) : (s.withPc a).stack = s.stack := rfl
@[simp] theorem State.withPc_dt (s : State) (a) : (s.withPc a).dt = s.dt := rfl
@[simp] theorem State.withPc_st (s : State) (a) : (s.withPc a).st = s.st := rfl
@[simp] theorem State.withPc_mem (s : State) (a) : (s.withPc a).mem = s.mem := rfl
@[simp] theorem State.withPc_key (s : State) (a) : (s.withPc a).key = s.key := rfl
@[simp] theorem State.withPc_wait (s : State) (a) : (s.withPc a).wait = s.wait := rfl
@[simp] theorem State.withPc_pix (s : State) (a) : (s.withPc a).pix = s.pix := rfl
@[simp] theorem State.withPc_dirty (s : State) (a) : (s.withPc a).dirty = s.dirty := rfl
@[simp] theorem State.withPc_tone (s : State) (a) : (s.withPc a).tone = s.tone := rfl
@[simp] theorem State.withPc_fault (s : State) (a) : (s.withPc a).fault = s.fault := rfl
@[simp] theorem State.withPc_settings (s : State) (a) : (s.withPc a).settings = s.settings := rfl
@[simp] theorem State.withPc_sysFatal (s : State) (a) : (s.withPc a).sysFatal = s.sysFatal := rfl
@[simp] theorem State.withPc_cpuClock (s : State) (a) : (s.withPc a).cpuClock = s.cpuClock := rfl
@[simp] theorem State.withPc_delayClock (s : State) (a) : (s.withPc a).delayClock = s.delayClock := rfl
@[simp] theorem State.withPc_soundClock (s : State) (a) : (s.withPc a).soundClock = s.soundClock := rfl
@[simp] theorem State.withPc_freeCount (s : State) (a) : (s.withPc a).freeCount = s.freeCount := rfl
@[simp] theorem State.withPc_schedule (s : State) (a) : (s.withPc a).schedule = s.schedule := rfl
@[simp] theorem State.withPc_eventCount (s : State) (a) : (s.withPc a).eventCount = s.eventCount := rfl
@[simp] theorem State.withPc_withPc (s : State) (a b) : (s.withPc a).withPc b = s.withPc b := rfl

@[simp] theorem State.withSp_v (s : State) (a) : (s.withSp a).v = s.v := rfl
@[simp] theorem State.withSp_i (s : State) (a) : (s.withSp a).i = s.i := rfl
@[simp] theorem State.withSp_pc (s : State) (a) : (s.withSp a).pc = s.pc := rfl
@[simp] theorem State.withSp_sp (s : State) (a) : (s.withSp a).sp = a := rfl
@[simp] theorem State.withSp_stack (s : State) (a) : (s.withSp a).stack = s.stack := rfl
@[simp] theorem State.withSp_dt (s : State) (a) : (s.withSp a).dt = s.dt := rfl
@[simp] theorem State.withSp_st (s : State) (a) : (s.withSp a).st = s.st := rfl
@[simp] theorem State.withSp_mem (s : State) (a) : (s.withSp a).mem = s.mem := rfl
@[simp] theorem State.withSp_key (s : State) (a) : (s.withSp a).key = s.key := rfl
@[simp] theorem State.withSp_wait (s : State) (a) : (s.withSp a).wait = s.wait := rfl
@[simp] theorem State.withSp_pix (s : State) (a) : (s.withSp a).pix = s.pix := rfl
@[simp] theorem State.withSp_dirty (s : State) (a) : (s.withSp a).dirty = s.dirty := rfl
@[simp] theorem State.withSp_tone (s : State) (a) : (s.withSp a).tone = s.tone := rfl
@[simp] theorem State.withSp_fault (s : State) (a) : (s.withSp a).fault = s.fault := rfl
@[simp] theorem State.withSp_settings (s : State) (a) : (s.withSp a).settings = s.settings := rfl
@[simp] theorem State.withSp_sysFatal (s : State) (a) : (s.withSp a).sysFatal = s.sysFatal := rfl
@[simp] theorem State.withSp_cpuClock (s : State) (a) : (s.withSp a).cpuClock = s.cpuClock := rfl
@[simp] theorem State.withSp_delayClock (s : State) (a) : (s.withSp a).delayClock = s.delayClock := rfl
@[simp] theorem State.withSp_soundClock (s : State) (a) : (s.withSp a).soundClock = s.soundClock := rfl
@[simp] theorem State.withSp_freeCount (s : State) (a) : (s.withSp a).freeCount = s.freeCount := rfl
@[simp] theorem State.withSp_schedule (s : State) (a) : (s.withSp a).schedule = s.schedule := rfl
@[simp] theorem State.withSp_eventCount (s : State) (a) : (s.withSp a).eventCount = s.eventCount := rfl
@[simp] theorem State.withSp_withSp (s : State) (a b) : (s.withSp a).withSp b = s.withSp b := rfl

@[simp] theorem State.withStack_v (s : State) (a) : (s.withStack a).v = s.v := rfl
@[simp] theorem State.withStack_i (s : State) (a) : (s.withStack a).i = s.i := rfl
@[simp] theorem State.withStack_pc (s : State) (a) : (s.withStack a).pc = s.pc := rfl
@[simp] theorem State.withStack_sp (s : State) (a) : (s.withStack a).sp = s.sp := rfl
@[simp] theorem State.withStack_stack (s : State) (a) : (s.withStack a).stack = a := rfl
@[simp] theorem State.withStack_dt (s : State) (a) : (s.withStack a).dt = s.dt := rfl
@[simp] theorem State.withStack_st (s : State) (a) : (s.withStack a).st = s.st := rfl
@[simp] theorem State.withStack_mem (s : State) (a) : (s.withStack a).mem = s.mem := rfl
@[simp] theorem State.withStack_key (s : State) (a) : (s.withStack a).key = s.key := rfl
@[simp] theorem State.withStack_wait (s : State) (a) : (s.withStack a).wait = s.wait := rfl
@[simp] theorem State.withStack_pix (s : State) (a) : (s.withStack a).pix = s.pix := rfl
@[simp] theorem State.withStack_dirty (s : State) (a) : (s.withStack a).dirty = s.dirty := rfl
@[simp] theorem State.withStack_tone (s : State) (a) : (s.withStack a).tone = s.tone := rfl
@[simp] theorem State.withStack_fault (s : State) (a) : (s.withStack a).fault = s.fault := rfl
@[simp] theorem State.withStack_settings (s : State) (a) : (s.withStack a).settings = s.settings := rfl
@[simp] theorem State.withStack_sysFatal (s : State) (a) : (s.withStack a).sysFatal = s.sysFatal := rfl
@[simp] theorem State.withStack_cpuClock (s : State) (a) : (s.withStack a).cpuClock = s.cpuClock := rfl
@[simp] theorem State.withStack_delayClock (s : State) (a) : (s.withStack a).delayClock = s.delayClock := rfl
@[simp] theorem State.withStack_soundClock (s : State) (a) : (s.withStack a).soundClock = s.soundClock := rfl
@[simp] theorem State.withStack_freeCount (s : State) (a) : (s.withStack a).freeCount = s.freeCount := rfl
@[simp] theorem State.withStack_schedule (s : State) (a) : (s.withStack a).schedule = s.schedule := rfl
@[simp] theorem State.withStack_eventCount (s : State) (a) : (s.withStack a).eventCount = s.eventCount := rfl
@[simp] theorem State.withStack_withStack (s : State) (a b) : (s.withStack a).withStack b = s.withStack b := rfl

@[simp] theorem State.withDt_v (s : State) (a) : (s.withDt a).v = s.v := rfl
@[simp] theorem State.withDt_i (s : State) (a) : (s.withDt a).i = s.i := rfl
@[simp] theorem State.withDt_pc (s : State) (a) : (s.withDt a).pc = s.pc := rfl
@[simp] theorem State.withDt_sp (s : State) (a) : (s.withDt a).sp = s.sp := rfl
@[simp] theorem State.withDt_stack (s : State) (a) : (s.withDt a).stack = s.stack := rfl
@[simp] theorem State.withDt_dt (s : State) (a) : (s.withDt a).dt = a := rfl
@[simp] theorem State.withDt_st (s : State) (a) : (s.withDt a).st = s.st := rfl
@[simp] theorem State.withDt_mem (s : State) (a) : (s.withDt a).mem = s.mem := rfl
@[simp] theorem State.withDt_key (s : State) (a) : (s.withDt a).key = s.key := rfl
@[simp] theorem State.withDt_wait (s : State) (a) : (s.withDt a).wait = s.wait := rfl
@[simp] theorem State.withDt_pix (s : State) (a) : (s.withDt a).pix = s.pix := rfl
@[simp] theorem State.withDt_dirty (s : State) (a) : (s.withDt a).dirty = s.dirty := rfl
@[simp] theorem State.withDt_tone (s : State) (a) : (s.withDt a).tone = s.tone := rfl
@[simp] theorem State.withDt_fault (s : State) (a) : (s.withDt a).fault = s.fault := rfl
@[simp] theorem State.withDt_settings (s : State) (a) : (s.withDt a).settings = s.settings := rfl
@[simp] theorem State.withDt_sysFatal (s : State) (a) : (s.withDt a).sysFatal = s.sysFatal := rfl
@[simp] theorem State.withDt_cpuClock (s : State) (a) : (s.withDt a).cpuClock = s.cpuClock := rfl
@[simp] theorem State.withDt_delayClock (s : State) (a) : (s.withDt a).delayClock = s.delayClock := rfl
@[simp] theorem State.withDt_soundClock (s : State) (a) : (s.withDt a).soundClock = s.soundClock := rfl
@[simp] theorem State.withDt_freeCount (s : State) (a) : (s.withDt a).freeCount = s.freeCount := rfl
@[simp] theorem State.withDt_schedule (s : State) (a) : (s.withDt a).schedule = s.schedule := rfl
@[simp] theorem State.withDt_eventCount (s : State) (a) : (s.withDt a).eventCount = s.eventCount := rfl
@[simp] theorem State.withDt_withDt (s : State) (a b) : (s.withDt a).withDt b = s.withDt b := rfl

@[simp] theorem State.withSt_v (s : State) (a) : (s.withSt a).v = s.v := rfl
@[simp] theorem State.withSt_i (s : State) (a) : (s.withSt a).i = s.i := rfl
@[simp] theorem State.withSt_pc (s : State) (a) : (s.withSt a).pc = s.pc := rfl
@[simp] theorem State.withSt_sp (s : State) (a) : (s.withSt a).sp = s.sp := rfl
@[simp] theorem State.withSt_stack (s : State) (a) : (s.withSt a).stack = s.stack := rfl
@[simp] theorem State.withSt_dt (s : State) (a) : (s.withSt a).dt = s.dt := rfl
@[simp] theorem State.withSt_st (s : State) (a) : (s.withSt a).st = a := rfl
@[simp] theorem State.withSt_mem (s : State) (a) : (s.withSt a).mem = s.mem := rfl
@[simp] theorem State.withSt_key (s : State) (a) : (s.withSt a).key = s.key := rfl
@[simp] theorem State.withSt_wait (s : State) (a) : (s.withSt a).wait = s.wait := rfl
@[simp] theorem State.withSt_pix (s : State) (a) : (s.withSt a).pix = s.pix := rfl
@[simp] theorem State.withSt_dirty (s : State) (a) : (s.withSt a).dirty = s.dirty := rfl
@[simp] theorem State.withSt_tone (s : State) (a) : (s.withSt a).tone = s.tone := rfl
@[simp] theorem State.withSt_fault (s : State) (a) : (s.withSt a).fault = s.fault := rfl
@[simp] theorem State.withSt_settings (s : State) (a) : (s.withSt a).settings = s.settings := rfl
@[simp] theorem State.withSt_sysFatal (s : State) (a) : (s.withSt a).sysFatal = s.sysFatal := rfl
@[simp] theorem State.withSt_cpuClock (s : State) (a) : (s.withSt a).cpuClock = s.cpuClock := rfl
@[simp] theorem State.withSt_delayClock (s : State) (a) : (s.withSt a).delayClock = s.delayClock := rfl
@[simp] theorem State.withSt_soundClock (s : State) (a) : (s.withSt a).soundClock = s.soundClock := rfl
@[simp] theorem State.withSt_freeCount (s : State) (a) : (s.withSt a).freeCount = s.freeCount := rfl
@[simp] theorem State.withSt_schedule (s : State) (a) : (s.withSt a).schedule = s.schedule := rfl
@[simp] theorem State.withSt_eventCount (s : State) (a) : (s.withSt a).eventCount = s.eventCount := rfl
@[simp] theorem State.withSt_withSt (s : State) (a b) : (s.withSt a).withSt b = s.withSt b := rfl

@[simp] theorem State.withMem_v (s : State) (a) : (s.withMem a).v = s.v := rfl
@[simp] theorem State.withMem_i (s : State) (a) : (s.withMem a).i = s.i := rfl
@[simp] theorem State.withMem_pc (s : State) (a) : (s.withMem a).pc = s.pc := rfl
@[simp] theorem State.withMem_sp (s : State) (a) : (s.withMem a).sp = s.sp := rfl
@[simp] theorem State.withMem_stack (s : State) (a) : (s.withMem a).stack = s.stack := rfl
@[simp] theorem State.withMem_dt (s : State) (a) : (s.withMem a).dt = s.dt := rfl
@[simp] theorem State.withMem_st (s : State) (a) : (s.withMem a).st = s.st := rfl
@[simp] theorem State.withMem_mem (s : State) (a) : (s.withMem a).mem = a := rfl
@[simp] theorem State.withMem_key (s : State) (a) : (s.withMem a).key = s.key := rfl
@[simp] theorem State.withMem_wait (s : State) (a) : (s.withMem a).wait = s.wait := rfl
@[simp] theorem State.withMem_pix (s : State) (a) : (s.withMem a).pix = s.pix := rfl
@[simp] theorem State.withMem_dirty (s : State) (a) : (s.withMem a).dirty = s.dirty := rfl
@[simp] theorem State.withMem_tone (s : State) (a) : (s.withMem a).tone = s.tone := rfl
@[simp] theorem State.withMem_fault (s : State) (a) : (s.withMem a).fault = s.fault := rfl
@[simp] theorem State.withMem_settings (s : State) (a) : (s.withMem a).settings = s.settings := rfl
@[simp] theorem State.withMem_sysFatal (s : State) (a) : (s.withMem a).sysFatal = s.sysFatal := rfl
@[simp] theorem State.withMem_cpuClock (s : State) (a) : (s.withMem a).cpuClock = s.cpuClock := rfl
@[simp] theorem State.withMem_delayClock (s : State) (a) : (s.withMem a).delayClock = s.delayClock := rfl
@[simp] theorem State.withMem_soundClock (s : State) (a) : (s.withMem a).soundClock = s.soundClock := rfl
@[simp] theorem State.withMem_freeCount (s : State) (a) : (s.withMem a).freeCount = s.freeCount := rfl
@[simp] theorem State.withMem_schedule (s : State) (a) : (s.withMem a).schedule = s.schedule := rfl
@[simp] theorem State.withMem_eventCount (s : State) (a) : (s.withMem a).eventCount = s.eventCount := rfl
@[simp] theorem State.withMem_withMem (s : State) (a b) : (s.withMem a).withMem b = s.withMem b := rfl

@[simp] theorem State.withKey_v (s : State) (a) : (s.withKey a).v = s.v := rfl
@[simp] theorem State.withKey_i (s : State) (a) : (s.withKey a).i = s.i := rfl
@[simp] theorem State.withKey_pc (s : State) (a) : (s.withKey a).pc = s.pc := rfl
@[simp] theorem State.withKey_sp (s : State) (a) : (s.withKey a).sp = s.sp := rfl
@[simp] theorem State.withKey_stack (s : State) (a) : (s.withKey a).stack = s.stack := rfl
@[simp] theorem State.withKey_dt (s : State) (a) : (s.withKey a).dt = s.dt := rfl
@[simp] theorem State.withKey_st (s : State) (a) : (s.withKey a).st = s.st := rfl
@[simp] theorem State.withKey_mem (s : State) (a) : (s.withKey a).mem = s.mem := rfl
@[simp] theorem State.withKey_key (s : State) (a) : (s.withKey a).key = a := rfl
@[simp] theorem State.withKey_wait (s : State) (a) : (s.withKey a).wait = s.wait := rfl
@[simp] theorem State.withKey_pix (s : State) (a) : (s.withKey a).pix = s.pix := rfl
@[simp] theorem State.withKey_dirty (s : State) (a) : (s.withKey a).dirty = s.dirty := rfl
@[simp] theorem State.withKey_tone (s : State) (a) : (s.withKey a).tone = s.tone := rfl
@[simp] theorem State.withKey_fault (s : State) (a) : (s.withKey a).fault = s.fault := rfl
@[simp] theorem State.withKey_settings (s : State) (a) : (s.withKey a).settings = s.settings := rfl
@[simp] theorem State.withKey_sysFatal (s : State) (a) : (s.withKey a).sysFatal = s.sysFatal := rfl
@[simp] theorem State.withKey_cpuClock (s : State) (a) : (s.withKey a).cpuClock = s.cpuClock := rfl
@[simp] theorem State.withKey_delayClock (s : State) (a) : (s.withKey a).delayClock = s.delayClock := rfl
@[simp] theorem State.withKey_soundClock (s : State) (a) : (s.withKey a).soundClock = s.soundClock := rfl
@[simp] theorem State.withKey_freeCount (s : State) (a) : (s.withKey a).freeCount = s.freeCount := rfl
@[simp] theorem State.withKey_schedule (s : State) (a) : (s.withKey a).schedule = s.schedule := rfl
@[simp] theorem State.withKey_eventCount (s : State) (a) : (s.withKey a).eventCount = s.eventCount := rfl
@[simp] theorem State.withKey_withKey (s : State) (a b) : (s.withKey a).withKey b = s.withKey b := rfl

@[simp] theorem State.withWait_v (s : State) (a) : (s.withWait a).v = s.v := rfl
@[simp] theorem State.withWait_i (s : State) (a) : (s.withWait a).i = s.i := rfl
@[simp] theorem State.withWait_pc (s : State) (a) : (s.withWait a).pc = s.pc := rfl
@[simp] theorem State.withWait_sp (s : State) (a) : (s.withWait a).sp = s.sp := rfl
@[simp] theorem State.withWait_stack (s : State) (a) : (s.withWait a).stack = s.stack := rfl
@[simp] theorem State.withWait_dt (s : State) (a) : (s.withWait a).dt = s.dt := rfl
@[simp] theorem State.withWait_st (s : State) (a) : (s.withWait a).st = s.st := rfl
@[simp] theorem State.withWait_mem (s : State) (a) : (s.withWait a).mem = s.mem := rfl
@[simp] theorem State.withWait_key (s : State) (a) : (s.withWait a).key = s.key := rfl
@[simp] theorem State.withWait_wait (s : State) (a) : (s.withWait a).wait = a := rfl
@[simp] theorem State.withWait_pix (s : State) (a) : (s.withWait a).pix = s.pix := rfl
@[simp] theorem State.withWait_dirty (s : State) (a) : (s.withWait a).dirty = s.dirty := rfl
@[simp] theorem State.withWait_tone (s : State) (a) : (s.withWait a).tone = s.tone := rfl
@[simp] theorem State.withWait_fault (s : State) (a) : (s.withWait a).fault = s.fault := rfl
@[simp] theorem State.withWait_settings (s : State) (a) : (s.withWait a).settings = s.settings := rfl
@[simp] theorem State.withWait_sysFatal (s : State) (a) : (s.withWait a).sysFatal = s.sysFatal := rfl
@[simp] theorem State.withWait_cpuClock (s : State) (a) : (s.withWait a).cpuClock = s.cpuClock := rfl
@[simp] theorem State.withWait_delayClock (s : State) (a) : (s.withWait a).delayClock = s.delayClock := rfl
@[simp] theorem State.withWait_soundClock (s : State) (a) : (s.withWait a).soundClock = s.soundClock := rfl
@[simp] theorem State.withWait_freeCount (s : State) (a) : (s.withWait a).freeCount = s.freeCount := rfl
@[simp] theorem State.withWait_schedule (s : State) (a) : (s.withWait a).schedule = s.schedule := rfl
@[simp] theorem State.withWait_eventCount (s : State) (a) : (s.withWait a).eventCount = s.eventCount := rfl
@[simp] theorem State.withWait_withWait (s : State) (a b) : (s.withWait a).withWait b = s.withWait b := rfl

@[simp] theorem State.withPix_v (s : State) (a) : (s.withPix a).v = s.v := rfl
@[simp] theorem State.withPix_i (s : State) (a) : (s.withPix a).i = s.i := rfl
@[simp] theorem State.withPix_pc (s : State) (a) : (s.withPix a).pc = s.pc := rfl
@[simp] theorem State.withPix_sp (s : State) (a) : (s.withPix a).sp = s.sp := rfl
@[simp] theorem State.withPix_stack (s : State) (a) : (s.withPix a).stack = s.stack := rfl
@[simp] theorem State.withPix_dt (s : State) (a) : (s.withPix a).dt = s.dt := rfl
@[simp] theorem State.withPix_st (s : State) (a) : (s.withPix a).st = s.st := rfl
@[simp] theorem State.withPix_mem (s : State) (a) : (s.withPix a).mem = s.mem := rfl
@[simp] theorem State.withPix_key (s : State) (a) : (s.withPix a).key = s.key := rfl
@[simp] theorem State.withPix_wait (s : State) (a) : (s.withPix a).wait = s.wait := rfl
@[simp] theorem State.withPix_pix (s : State) (a) : (s.withPix a).pix = a := rfl
@[simp] theorem State.withPix_dirty (s : State) (a) : (s.withPix a).dirty = s.dirty := rfl
@[simp] theorem State.withPix_tone (s : State) (a) : (s.withPix a).tone = s.tone := rfl
@[simp] theorem State.withPix_fault (s : State) (a) : (s.withPix a).fault = s.fault := rfl
@[simp] theorem State.withPix_settings (s : State) (a) : (s.withPix a).settings = s.settings := rfl
@[simp] theorem State.withPix_sysFatal (s : State) (a) : (s.withPix a).sysFatal = s.sysFatal := rfl
@[simp] theorem State.withPix_cpuClock (s : State) (a) : (s.withPix a).cpuClock = s.cpuClock := rfl
@[simp] theorem State.withPix_delayClock (s : State) (a) : (s.withPix a).delayClock = s.delayClock := rfl
@[simp] theorem State.withPix_soundClock (s : State) (a) : (s.withPix a).soundClock = s.soundClock := rfl
@[simp] theorem State.withPix_freeCount (s : State) (a) : (s.withPix a).freeCount = s.freeCount := rfl
@[simp] theorem State.withPix_schedule (s : State) (a) : (s.withPix a).schedule = s.schedule := rfl
@[simp] theorem State.withPix_eventCount (s : State) (a) : (s.withPix a).eventCount = s.eventCount := rfl
@[simp] theorem State.withPix_withPix (s : State) (a b) : (s.withPix a).withPix b = s.withPix b := rfl

@[simp] theorem State.withDirty_v (s : State) (a) : (s.withDirty a).v = s.v := rfl
@[simp] theorem State.withDirty_i (s : State) (a) : (s.withDirty a).i = s.i := rfl
@[simp] theorem State.withDirty_pc (s : State) (a) : (s.withDirty a).pc = s.pc := rfl
@[simp] theorem State.withDirty_sp (s : State) (a) : (s.withDirty a).sp = s.sp := rfl
@[simp] theorem State.withDirty_stack (s : State) (a) : (s.withDirty a).stack = s.stack := rfl
@[simp] theorem State.withDirty_dt (s : State) (a) : (s.withDirty a).dt = s.dt := rfl
@[simp] theorem State.withDirty_st (s : State) (a) : (s.withDirty a).st = s.st := rfl
@[simp] theorem State.withDirty_mem (s : State) (a) : (s.withDirty a).mem = s.mem := rfl
@[simp] theorem State.withDirty_key (s : State) (a) : (s.withDirty a).key = s.key := rfl
@[simp] theorem State.withDirty_wait (s : State) (a) : (s.withDirty a).wait = s.wait := rfl
@[simp] theorem State.withDirty_pix (s : State) (a) : (s.withDirty a).pix = s.pix := rfl
@[simp] theorem State.withDirty_dirty (s : State) (a) : (s.withDirty a).dirty = a := rfl
@[simp] theorem State.withDirty_tone (s : State) (a) : (s.withDirty a).tone = s.tone := rfl
@[simp] theorem State.withDirty_fault (s : State) (a) : (s.withDirty a).fault = s.fault := rfl
@[simp] theorem State.withDirty_settings (s : State) (a) : (s.withDirty a).settings = s.settings := rfl
@[simp] theorem State.withDirty_sysFatal (s : State) (a) : (s.withDirty a).sysFatal = s.sysFatal := rfl
@[simp] theorem State.withDirty_cpuClock (s : State) (a) : (s.withDirty a).cpuClock = s.cpuClock := rfl
@[simp] theorem State.withDirty_delayClock (s : State) (a) : (s.withDirty a).delayClock = s.delayClock := rfl
@[simp] theorem State.withDirty_soundClock (s : State) (a) : (s.withDirty a).soundClock = s.soundClock := rfl
@[simp] theorem State.withDirty_freeCount (s : State) (a) : (s.withDirty a).freeCount = s.freeCount := rfl
@[simp] theorem State.withDirty_schedule (s : State) (a) : (s.withDirty a).schedule = s.schedule := rfl
@[simp] theorem State.withDirty_eventCount (s : State) (a) : (s.withDirty a).eventCount = s.eventCount := rfl
@[simp] theorem State.withDirty_withDirty (s : State) (a b) : (s.withDirty a).withDirty b = s.withDirty b := rfl

@[simp] theorem State.withTone_v (s : State) (a) : (s.withTone a).v = s.v := rfl
@[simp] theorem State.withTone_i (s : State) (a) : (s.withTone a).i = s.i := rfl
@[simp] theorem State.withTone_pc (s : State) (a) : (s.withTone a).pc = s.pc := rfl
@[simp] theorem State.withTone_sp (s : State) (a) : (s.withTone a).sp = s.sp := rfl
@[simp] theorem State.withTone_stack (s : State) (a) : (s.withTone a).stack = s.stack := rfl
@[simp] theorem State.withTone_dt (s : State) (a) : (s.withTone a).dt = s.dt := rfl
@[simp] theorem State.withTone_st (s : State) (a) : (s.withTone a).st = s.st := rfl
@[simp] theorem State.withTone_mem (s : State) (a) : (s.withTone a).mem = s.mem := rfl
@[simp] theorem State.withTone_key (s : State) (a) : (s.withTone a).key = s.key := rfl
@[simp] theorem State.withTone_wait (s : State) (a) : (s.withTone a).wait = s.wait := rfl
@[simp] theorem State.withTone_pix (s : State) (a) : (s.withTone a).pix = s.pix := rfl
@[simp] theorem State.withTone_dirty (s : State) (a) : (s.withTone a).dirty = s.dirty := rfl
@[simp] theorem State.withTone_tone (s : State) (a) : (s.withTone a).tone = a := rfl
@[simp] theorem State.withTone_fault (s : State) (a) : (s.withTone a).fault = s.fault := rfl
@[simp] theorem State.withTone_settings (s : State) (a) : (s.withTone a).settings = s.settings := rfl
@[simp] theorem State.withTone_sysFatal (s : State) (a) : (s.withTone a).sysFatal = s.sysFatal := rfl
@[simp] theorem State.withTone_cpuClock (s : State) (a) : (s.withTone a).cpuClock = s.cpuClock := rfl
@[simp] theorem State.withTone_delayClock (s : State) (a) : (s.withTone a).delayClock = s.delayClock := rfl
@[simp] theorem State.withTone_soundClock (s : State) (a) : (s.withTone a).soundClock = s.soundClock := rfl
@[simp] theorem State.withTone_freeCount (s : State) (a) : (s.withTone a).freeCount = s.freeCount := rfl
@[simp] theorem State.withTone_schedule (s : State) (a) : (s.withTone a).schedule = s.schedule := rfl
@[simp] theorem State.withTone_eventCount (s : State) (a) : (s.withTone a).eventCount = s.eventCount := rfl
@[simp] theorem State.withTone_withTone (s : State) (a b) : (s.withTone a).withTone b = s.withTone b := rfl

@[simp] theorem State.withFault_v (s : State) (a) : (s.withFault a).v = s.v := rfl
@[simp] theorem State.withFault_i (s : State) (a) : (s.withFault a).i = s.i := rfl
@[simp] theorem State.withFault_pc (s : State) (a) : (s.withFault a).pc = s.pc := rfl
@[simp] theorem State.withFault_sp (s : State) (a) : (s.withFault a).sp = s.sp := rfl
@[simp] theorem State.withFault_stack (s : State) (a) : (s.withFault a).stack = s.stack := rfl
@[simp] theorem State.withFault_dt (s : State) (a) : (s.withFault a).dt = s.dt := rfl
@[simp] theorem State.withFault_st (s : State) (a) : (s.withFault a).st = s.st := rfl
@[simp] theorem State.withFault_mem (s : State) (a) : (s.withFault a).mem = s.mem := rfl
@[simp] theorem State.withFault_key (s : State) (a) : (s.withFault a).key = s.key := rfl
@[simp] theorem State.withFault_wait (s : State) (a) : (s.withFault a).wait = s.wait := rfl
@[simp] theorem State.withFault_pix (s : State) (a) : (s.withFault a).pix = s.pix := rfl
@[simp] theorem State.withFault_dirty (s : State) (a) : (s.withFault a).dirty = s.dirty := rfl
@[simp] theorem State.withFault_tone (s : State) (a) : (s.withFault a).tone = s.tone := rfl
@[simp] theorem State.withFault_fault (s : State) (a) : (s.withFault a).fault = a := rfl
@[simp] theorem State.withFault_settings (s : State) (a) : (s.withFault a).settings = s.settings := rfl
@[simp] theorem State.withFault_sysFatal (s : State) (a) : (s.withFault a).sysFatal = s.sysFatal := rfl
@[simp] theorem State.withFault_cpuClock (s : State) (a) : (s.withFault a).cpuClock = s.cpuClock := rfl
@[simp] theorem State.withFault_delayClock (s : State) (a) : (s.withFault a).delayClock = s.delayClock := rfl
@[simp] theorem State.withFault_soundClock (s : State) (a) : (s.withFault a).soundClock = s.soundClock := rfl
@[simp] theorem State.withFault_freeCount (s : State) (a) : (s.withFault a).freeCount = s.freeCount := rfl
@[simp] theorem State.withFault_schedule (s : State) (a) : (s.withFault a).schedule = s.schedule := rfl
@[simp] theorem State.withFault_eventCount (s : State) (a) : (s.withFault a).eventCount = s.eventCount := rfl
@[simp] theorem State.withFault_withFault (s : State) (a b) : (s.withFault a).withFault b = s.withFault b := rfl

@[simp] theorem State.withCpuClock_v (s : State) (a) : (s.withCpuClock a).v = s.v := rfl
@[simp] theorem State.withCpuClock_i (s : State) (a) : (s.withCpuClock a).i = s.i := rfl
@[simp] theorem State.withCpuClock_pc (s : State) (a) : (s.withCpuClock a).pc = s.pc := rfl
@[simp] theorem State.withCpuClock_sp (s : State) (a) : (s.withCpuClock a).sp = s.sp := rfl
@[simp] theorem State.withCpuClock_stack (s : State) (a) : (s.withCpuClock a).stack = s.stack := rfl
@[simp] theorem State.withCpuClock_dt (s : State) (a) : (s.withCpuClock a).dt = s.dt := rfl
@[simp] theorem State.withCpuClock_st (s : State) (a) : (s.withCpuClock a).st = s.st := rfl
@[simp] theorem State.withCpuClock_mem (s : State) (a) : (s.withCpuClock a).mem = s.mem := rfl
@[simp] theorem State.withCpuClock_key (s : State) (a) : (s.withCpuClock a).key = s.key := rfl
@[simp] theorem State.withCpuClock_wait (s : State) (a) : (s.withCpuClock a).wait = s.wait := rfl
@[simp] theorem State.withCpuClock_pix (s : State) (a) : (s.withCpuClock a).pix = s.pix := rfl
@[simp] theorem State.withCpuClock_dirty (s : State) (a) : (s.withCpuClock a).dirty = s.dirty := rfl
@[simp] theorem State.withCpuClock_tone (s : State) (a) : (s.withCpuClock a).tone = s.tone := rfl
@[simp] theorem State.withCpuClock_fault (s : State) (a) : (s.withCpuClock a).fault = s.fault := rfl
@[simp] theorem State.withCpuClock_settings (s : State) (a) : (s.withCpuClock a).settings = s.settings := rfl
@[simp] theorem State.withCpuClock_sysFatal (s : State) (a) : (s.withCpuClock a).sysFatal = s.sysFatal := rfl
@[simp] theorem State.withCpuClock_cpuClock (s : State) (a) : (s.withCpuClock a).cpuClock = a := rfl
@[simp] theorem State.withCpuClock_delayClock (s : State) (a) : (s.withCpuClock a).delayClock = s.delayClock := rfl
@[simp] theorem State.withCpuClock_soundClock (s : State) (a) : (s.withCpuClock a).soundClock = s.soundClock := rfl
@[simp] theorem State.withCpuClock_freeCount (s : State) (a) : (s.withCpuClock a).freeCount = s.freeCount := rfl
@[simp] theorem State.withCpuClock_schedule (s : State) (a) : (s.withCpuClock a).schedule = s.schedule := rfl
@[simp] theorem State.withCpuClock_eventCount (s : State) (a) : (s.withCpuClock a).eventCount = s.eventCount := rfl
@[simp] theorem State.withCpuClock_withCpuClock (s : State) (a b) : (s.withCpuClock a).withCpuClock b = s.withCpuClock b := rfl

@[simp] theorem State.withDelayClock_v (s : State) (a) : (s.withDelayClock a).v = s.v := rfl
@[simp] theorem State.withDelayClock_i (s : State) (a) : (s.withDelayClock a).i = s.i := rfl
@[simp] theorem State.withDelayClock_pc (s : State) (a) : (s.withDelayClock a).pc = s.pc := rfl
@[simp] theorem State.withDelayClock_sp (s : State) (a) : (s.withDelayClock a).sp = s.sp := rfl
@[simp] theorem State.withDelayClock_stack (s : State) (a) : (s.withDelayClock a).stack = s.stack := rfl
@[simp] theorem State.withDelayClock_dt (s : State) (a) : (s.withDelayClock a).dt = s.dt := rfl
@[simp] theorem State.withDelayClock_st (s : State) (a) : (s.withDelayClock a).st = s.st := rfl
@[simp] theorem State.withDelayClock_mem (s : State) (a) : (s.withDelayClock a).mem = s.mem := rfl
@[simp] theorem State.withDelayClock_key (s : State) (a) : (s.withDelayClock a).key = s.key := rfl
@[simp] theorem State.withDelayClock_wait (s : State) (a) : (s.withDelayClock a).wait = s.wait := rfl
@[simp] theorem State.withDelayClock_pix (s : State) (a) : (s.withDelayClock a).pix = s.pix := rfl
@[simp] theorem State.withDelayClock_dirty (s : State) (a) : (s.withDelayClock a).dirty = s.dirty := rfl
@[simp] theorem State.withDelayClock_tone (s : State) (a) : (s.withDelayClock a).tone = s.tone := rfl
@[simp] theorem State.withDelayClock_fault (s : State) (a) : (s.withDelayClock a).fault = s.fault := rfl
@[simp] theorem State.withDelayClock_settings (s : State) (a) : (s.withDelayClock a).settings = s.settings := rfl
@[simp] theorem State.withDelayClock_sysFatal (s : State) (a) : (s.withDelayClock a).sysFatal = s.sysFatal := rfl
@[simp] theorem State.withDelayClock_cpuClock (s : State) (a) : (s.withDelayClock a).cpuClock = s.cpuClock := rfl
@[simp] theorem State.withDelayClock_delayClock (s : State) (a) : (s.withDelayClock a).delayClock = a := rfl
@[simp] theorem State.withDelayClock_soundClock (s : State) (a) : (s.withDelayClock a).soundClock = s.soundClock := rfl
@[simp] theorem State.withDelayClock_freeCount (s : State) (a) : (s.withDelayClock a).freeCount = s.freeCount := rfl
@[simp] theorem State.withDelayClock_schedule (s : State) (a) : (s.withDelayClock a).schedule = s.schedule := rfl
@[simp] theorem State.withDelayClock_eventCount (s : State) (a) : (s.withDelayClock a).eventCount = s.eventCount := rfl
@[simp] theorem State.withDelayClock_withDelayClock (s : State) (a b) : (s.withDelayClock a).withDelayClock b = s.withDelayClock b := rfl

@[simp] theorem State.withSoundClock_v (s : State) (a) : (s.withSoundClock a).v = s.v := rfl
@[simp] theorem State.withSoundClock_i (s : State) (a) : (s.withSoundClock a).i = s.i := rfl
@[simp] theorem State.withSoundClock_pc (s : State) (a) : (s.withSoundClock a).pc = s.pc := rfl
@[simp] theorem State.withSoundClock_sp (s : State) (a) : (s.withSoundClock a).sp = s.sp := rfl
@[simp] theorem State.withSoundClock_stack (s : State) (a) : (s.withSoundClock a).stack = s.stack := rfl
@[simp] theorem State.withSoundClock_dt (s : State) (a) : (s.withSoundClock a).dt = s.dt := rfl
@[simp] theorem State.withSoundClock_st (s : State) (a) : (s.withSoundClock a).st = s.st := rfl
@[simp] theorem State.withSoundClock_mem (s : State) (a) : (s.withSoundClock a).mem = s.mem := rfl
@[simp] theorem State.withSoundClock_key (s : State) (a) : (s.withSoundClock a).key = s.key := rfl
@[simp] theorem State.withSoundClock_wait (s : State) (a) : (s.withSoundClock a).wait = s.wait := rfl
@[simp] theorem State.withSoundClock_pix (s : State) (a) : (s.withSoundClock a).pix = s.pix := rfl
@[simp] theorem State.withSoundClock_dirty (s : State) (a) : (s.withSoundClock a).dirty = s.dirty := rfl
@[simp] theorem State.withSoundClock_tone (s : State) (a) : (s.withSoundClock a).tone = s.tone := rfl
@[simp] theorem State.withSoundClock_fault (s : State) (a) : (s.withSoundClock a).fault = s.fault := rfl
@[simp] theorem State.withSoundClock_settings (s : State) (a) : (s.withSoundClock a).settings = s.settings := rfl
@[simp] theorem State.withSoundClock_sysFatal (s : State) (a) : (s.withSoundClock a).sysFatal = s.sysFatal := rfl
@[simp] theorem State.withSoundClock_cpuClock (s : State) (a) : (s.withSoundClock a).cpuClock = s.cpuClock := rfl
@[simp] theorem State.withSoundClock_delayClock (s : State) (a) : (s.withSoundClock a).delayClock = s.delayClock := rfl
@[simp] theorem State.withSoundClock_soundClock (s : State) (a) : (s.withSoundClock a).soundClock = a := rfl
@[simp] theorem State.withSoundClock_freeCount (s : State) (a) : (s.withSoundClock a).freeCount = s.freeCount := rfl
@[simp] theorem State.withSoundClock_schedule (s : State) (a) : (s.withSoundClock a).schedule = s.schedule := rfl
@[simp] theorem State.withSoundClock_eventCount (s : State) (a) : (s.withSoundClock a).eventCount = s.eventCount := rfl
@[simp] theorem State.withSoundClock_withSoundClock (s : State) (a b) : (s.withSoundClock a).withSoundClock b = s.withSoundClock b := rfl

@[simp] theorem State.withFreeCount_v (s : State) (a) : (s.withFreeCount a).v = s.v := rfl
@[simp] theorem State.withFreeCount_i (s : State) (a) : (s.withFreeCount a).i = s.i := rfl
@[simp] theorem State.withFreeCount_pc (s : State) (a) : (s.withFreeCount a).pc = s.pc := rfl
@[simp] theorem State.withFreeCount_sp (s : State) (a) : (s.withFreeCount a).sp = s.sp := rfl
@[simp] theorem State.withFreeCount_stack (s : State) (a) : (s.withFreeCount a).stack = s.stack := rfl
@[simp] theorem State.withFreeCount_dt (s : State) (a) : (s.withFreeCount a).dt = s.dt := rfl
@[simp] theorem State.withFreeCount_st (s : State) (a) : (s.withFreeCount a).st = s.st := rfl
@[simp] theorem State.withFreeCount_mem (s : State) (a) : (s.withFreeCount a).mem = s.mem := rfl
@[simp] theorem State.withFreeCount_key (s : State) (a) : (s.withFreeCount a).key = s.key := rfl
@[simp] theorem State.withFreeCount_wait (s : State) (a) : (s.withFreeCount a).wait = s.wait := rfl
@[simp] theorem State.withFreeCount_pix (s : State) (a) : (s.withFreeCount a).pix = s.pix := rfl
@[simp] theorem State.withFreeCount_dirty (s : State) (a) : (s.withFreeCount a).dirty = s.dirty := rfl
@[simp] theorem State.withFreeCount_tone (s : State) (a) : (s.withFreeCount a).tone = s.tone := rfl
@[simp] theorem State.withFreeCount_fault (s : State) (a) : (s.withFreeCount a).fault = s.fault := rfl
@[simp] theorem State.withFreeCount_settings (s : State) (a) : (s.withFreeCount a).settings = s.settings := rfl
@[simp] theorem State.withFreeCount_sysFatal (s : State) (a) : (s.withFreeCount a).sysFatal = s.sysFatal := rfl
@[simp] theorem State.withFreeCount_cpuClock (s : State) (a) : (s.withFreeCount a).cpuClock = s.cpuClock := rfl
@[simp] theorem State.withFreeCount_delayClock (s : State) (a) : (s.withFreeCount a).delayClock = s.delayClock := rfl
@[simp] theorem State.withFreeCount_soundClock (s : State) (a) : (s.withFreeCount a).soundClock = s.soundClock := rfl
@[simp] theorem State.withFreeCount_freeCount (s : State) (a) : (s.withFreeCount a).freeCount = a := rfl
@[simp] theorem State.withFreeCount_schedule (s : State) (a) : (s.withFreeCount a).schedule = s.schedule := rfl
@[simp] theorem State.withFreeCount_eventCount (s : State) (a) : (s.withFreeCount a).eventCount = s.eventCount := rfl
@[simp] theorem State.withFreeCount_withFreeCount (s : State) (a b) : (s.withFreeCount a).withFreeCount b = s.withFreeCount b := rfl

@[simp] theorem State.withSchedule_v (s : State) (a) : (s.withSchedule a).v = s.v := rfl
@[simp] theorem State.withSchedule_i (s : State) (a) : (s.withSchedule a).i = s.i := rfl
@[simp] theorem State.withSchedule_pc (s : State) (a) : (s.withSchedule a).pc = s.pc := rfl
@[simp] theorem State.withSchedule_sp (s : State) (a) : (s.withSchedule a).sp = s.sp := rfl
@[simp] theorem State.withSchedule_stack (s : State) (a) : (s.withSchedule a).stack = s.stack := rfl
@[simp] theorem State.withSchedule_dt (s : State) (a) : (s.withSchedule a).dt = s.dt := rfl
@[simp] theorem State.withSchedule_st (s : State) (a) : (s.withSchedule a).st = s.st := rfl
@[simp] theorem State.withSchedule_mem (s : State) (a) : (s.withSchedule a).mem = s.mem := rfl
@[simp] theorem State.withSchedule_key (s : State) (a) : (s.withSchedule a).key = s.key := rfl
@[simp] theorem State.withSchedule_wait (s : State) (a) : (s.withSchedule a).wait = s.wait := rfl
@[simp] theorem State.withSchedule_pix (s : State) (a) : (s.withSchedule a).pix = s.pix := rfl
@[simp] theorem State.withSchedule_dirty (s : State) (a) : (s.withSchedule a).dirty = s.dirty := rfl
@[simp] theorem State.withSchedule_tone (s : State) (a) : (s.withSchedule a).tone = s.tone := rfl
@[simp] theorem State.withSchedule_fault (s : State) (a) : (s.withSchedule a).fault = s.fault := rfl
@[simp] theorem State.withSchedule_settings (s : State) (a) : (s.withSchedule a).settings = s.settings := rfl
@[simp] theorem State.withSchedule_sysFatal (s : State) (a) : (s.withSchedule a).sysFatal = s.sysFatal := rfl
@[simp] theorem State.withSchedule_cpuClock (s : State) (a) : (s.withSchedule a).cpuClock = s.cpuClock := rfl
@[simp] theorem State.withSchedule_delayClock (s : State) (a) : (s.withSchedule a).delayClock = s.delayClock := rfl
@[simp] theorem State.withSchedule_soundClock (s : State) (a) : (s.withSchedule a).soundClock = s.soundClock := rfl
@[simp] theorem State.withSchedule_freeCount (s : State) (a) : (s.withSchedule a).freeCount = s.freeCount := rfl
@[simp] theorem State.withSchedule_schedule (s : State) (a) : (s.withSchedule a).schedule = a := rfl
@[simp] theorem State.withSchedule_eventCount (s : State) (a) : (s.withSchedule a).eventCount = s.eventCount := rfl
@[simp] theorem State.withSchedule_withSchedule (s : State) (a b) : (s.withSchedule a).withSchedule b = s.withSchedule b := rfl

@[simp] theorem State.withEventCount_v (s : State) (a) : (s.withEventCount a).v = s.v := rfl
@[simp] theorem State.withEventCount_i (s : State) (a) : (s.withEventCount a).i = s.i := rfl
@[simp] theorem State.withEventCount_pc (s : State) (a) : (s.withEventCount a).pc = s.pc := rfl
@[simp] theorem State.withEventCount_sp (s : State) (a) : (s.withEventCount a).sp = s.sp := rfl
@[simp] theorem State.withEventCount_stack (s : State) (a) : (s.withEventCount a).stack = s.stack := rfl
@[simp] theorem State.withEventCount_dt (s : State) (a) : (s.withEventCount a).dt = s.dt := rfl
@[simp] theorem State.withEventCount_st (s : State) (a) : (s.withEventCount a).st = s.st := rfl
@[simp] theorem State.withEventCount_mem (s : State) (a) : (s.withEventCount a).mem = s.mem := rfl
@[simp] theorem State.withEventCount_key (s : State) (a) : (s.withEventCount a).key = s.key := rfl
@[simp] theorem State.withEventCount_wait (s : State) (a) : (s.withEventCount a).wait = s.wait := rfl
@[simp] theorem State.withEventCount_pix (s : State) (a) : (s.withEventCount a).pix = s.pix := rfl
@[simp] theorem State.withEventCount_dirty (s : State) (a) : (s.withEventCount a).dirty = s.dirty := rfl
@[simp] theorem State.withEventCount_tone (s : State) (a) : (s.withEventCount a).tone = s.tone := rfl
@[simp] theorem State.withEventCount_fault (s : State) (a) : (s.withEventCount a).fault = s.fault := rfl
@[simp] theorem State.withEventCount_settings (s : State) (a) : (s.withEventCount a).settings = s.settings := rfl
@[simp] theorem State.withEventCount_sysFatal (s : State) (a) : (s.withEventCount a).sysFatal = s.sysFatal := rfl
@[simp] theorem State.withEventCount_cpuClock (s : State) (a) : (s.withEventCount a).cpuClock = s.cpuClock := rfl
@[simp] theorem State.withEventCount_delayClock (s : State) (a) : (s.withEventCount a).delayClock = s.delayClock := rfl
@[simp] theorem State.withEventCount_soundClock (s : State) (a) : (s.withEventCount a).soundClock = s.soundClock := rfl
@[simp] theorem State.withEventCount_freeCount (s : State) (a) : (s.withEventCount a).freeCount = s.freeCount := rfl
@[simp] theorem State.withEventCount_schedule (s : State) (a) : (s.withEventCount a).schedule = s.schedule := rfl
@[simp] theorem State.withEventCount_eventCount (s : State) (a) : (s.withEventCount a).eventCount = a := rfl
@[simp] theorem State.withEventCount_withEventCount (s : State) (a b) : (s.withEventCount a).withEventCount b = s.withEventCount b := rfl

end Sys2Proof.Machine
end

