-- ==== Sys2Proof/Laws/Ops.lean ====
section
/-! SUPPORT. One lemma for each shared operation over registers, pc and the latch: what it writes and what it leaves. -/

namespace Sys2Proof.Machine

/-! ## Registers -/

@[simp] theorem State.reg_setReg_self (s : State) (x : RegIdx) (b : Byte) : (s.setReg x b).reg x = b := by
  simp [State.setReg, State.reg]

theorem State.reg_setReg_ne (s : State) {x r : RegIdx} (b : Byte) (h : r ≠ x) : (s.setReg x b).reg r = s.reg r := by
  have : x.val ≠ r.val := fun e => h (Fin.ext e.symm)
  simp [State.setReg, State.reg, Vector.getElem_set_ne _ _ this]

/-- A vector set at one register reads the new value there and the old one elsewhere. -/
theorem getElem_setReg (v : Vector Byte 16) (x r : RegIdx) (b : Byte) :
    (v.set x b)[r] = if r = x then b else v[r] := by
  by_cases h : r = x
  · subst h; simp
  · have : x.val ≠ r.val := fun e => h (Fin.ext e.symm)
    simp [h, Vector.getElem_set_ne _ _ this]

/-- A result and its flag: VF is the flag whatever the destination, the destination is the result unless it is VF (R110). -/
theorem State.reg_setResultAndFlag (s : State) (x r : RegIdx) (b : Byte) (f : Bool) :
    (s.setResultAndFlag x b f).reg r =
      if r = 15 then flagByte f else if r = x then b else s.reg r := by
  simp only [State.setResultAndFlag, State.setFlag]
  by_cases h : r = 15
  · subst h; simp
  · rw [State.reg_setReg_ne _ _ h, if_neg h]
    by_cases hx : r = x
    · subst hx; simp
    · rw [State.reg_setReg_ne _ _ hx, if_neg hx]

/-- Writing a result and its flag changes the registers and nothing else. -/
theorem State.setResultAndFlag_eq (s : State) (x : RegIdx) (b : Byte) (f : Bool) :
    s.setResultAndFlag x b f = { s with v := (s.v.set x b).set 15 (flagByte f) } := rfl

theorem State.setReg_eq (s : State) (x : RegIdx) (b : Byte) : s.setReg x b = { s with v := s.v.set x b } := rfl

@[simp] theorem State.setReg_v (s : State) (x : RegIdx) (b : Byte) : (s.setReg x b).v = s.v.set x b := rfl

theorem flagByte_toNat (b : Bool) : (flagByte b).toNat = if b = true then 1 else 0 := by cases b <;> rfl

theorem flagByte_eq_one {b : Bool} : flagByte b = 1 ↔ b = true := by cases b <;> simp [flagByte]

/-! ## Flags -/

theorem carry8_iff {sum : Nat} : carry8 sum = true ↔ 255 < sum := by simp [carry8]

theorem carry16_iff {sum : Nat} : carry16 sum = true ↔ 0xFFFF < sum := by simp [carry16]

theorem notBorrow_iff {a b : Byte} : notBorrow a b = true ↔ b.toNat ≤ a.toNat := by simp [notBorrow]

/-! ## Operands -/

theorem zextAddr_toNat (nnn : Addr12) : (zextAddr nnn).toNat = nnn.toNat := by
  have := nnn.isLt
  simp only [zextAddr, BitVec.toNat_setWidth]
  omega

/-- The high byte of a word comes first (R51). -/
theorem wordOfBytes_toNat (hi lo : Byte) : (wordOfBytes hi lo).toNat = hi.toNat * 256 + lo.toNat := by
  unfold wordOfBytes
  rw [BitVec.toNat_append, ← Nat.shiftLeft_add_eq_or_of_lt lo.isLt, Nat.shiftLeft_eq]

/-! ## pc and the latch -/

/-- A skip moves pc and nothing else (R104). -/
theorem State.skipIf_eq (s : State) (c : Bool) : s.skipIf c = { s with pc := if c then s.pc + 2 else s.pc } := by
  cases c <;> rfl

theorem State.advancePc_eq (s : State) : s.advancePc = { s with pc := s.pc + 2 } := rfl

theorem State.rewindPc_advancePc (s : State) : s.advancePc.rewindPc = s := by
  have h : s.pc + 2 - 2 = s.pc := by bv_omega
  show { s with pc := s.pc + 2 - 2 } = s
  rw [h]

/-- Raising a fault sets the latch and nothing else (R219). -/
theorem State.raise_eq (s : State) (f : CoreFault) : s.raise f = { s with fault := some f } := rfl

/-! ## Block transfers -/

/-- A faulting store changes memory, the count of free values and the latch, and nothing else. -/
theorem State.storeFaulting_eq (s : State) (base : Nat) (bytes : List Byte) (a : Nat) :
    s.storeFaulting base bytes a =
      { s with mem := Memory.writeWhere s.lands base bytes s.mem, freeCount := s.freeCount + 1,
               fault := some (.memoryOutOfBounds a) } := rfl

/-- A faulting load changes the registers, the count of free values and the latch, and nothing else. -/
theorem State.loadFaulting_eq (s : State) (base : Nat) (last : RegIdx) (a : Nat) :
    s.loadFaulting base last a =
      { s with v := loadedRegs s s.lands base last, freeCount := s.freeCount + 1,
               fault := some (.memoryOutOfBounds a) } := rfl

/-- The increment quirk changes `I` and nothing else (R156). -/
theorem State.bumpIndex_eq (s : State) (x : RegIdx) :
    s.bumpIndex x =
      { s with i := if s.settings.incrementIRegister then BitVec.ofNat 16 (s.i.toNat + x.val + 1) else s.i } := by
  unfold State.bumpIndex
  split <;> rfl

theorem State.length_regBlock (s : State) (x : RegIdx) : (s.regBlock x).length = blockLen x := by
  simp [State.regBlock, blockLen]

theorem State.getElem_regBlock (s : State) (x r : RegIdx) (h : r.val < (s.regBlock x).length) :
    (s.regBlock x)[r.val] = s.v[r] := by
  simp [State.regBlock]

theorem length_bcdDigits (b : Byte) : (bcdDigits b).length = 3 := rfl

/-! ## Fetch -/

/-- A fetch succeeds exactly when both bytes lie in memory, and gives the big-endian word (R51, R55, R91). -/
theorem State.fetch_eq_ok {s : State} {w : Word} :
    s.fetch = .ok w ↔ s.pc.toNat + 1 < 4096 ∧ w = wordOfBytes (s.mem.read s.pc.toNat) (s.mem.read (s.pc.toNat + 1)) := by
  simp only [State.fetch, memRead2, memRead1, Config.memSize]
  by_cases h1 : 4096 ≤ s.pc.toNat
  · simp [h1]; omega
  · by_cases h2 : 4096 ≤ s.pc.toNat + 1
    · simp [h1, h2]
    · simp only [h1, h2, if_false, Except.ok.injEq]
      exact ⟨fun h => ⟨by omega, h.symm⟩, fun h => h.2.symm⟩

/-- A fetch reads `pc` and memory only. -/
theorem State.fetch_congr {s t : State} (hp : t.pc = s.pc) (hm : t.mem = s.mem) : t.fetch = s.fetch := by
  simp [State.fetch, hp, hm]

end Sys2Proof.Machine
end

