-- ==== Sys2Proof/Laws/Display.lean ====
section
/-! SUPPORT. The rasterizer's laws: what one toggle does, and how effects on disjoint sets of pixels compose. -/

namespace Sys2Proof.Machine

theorem Grid.get_put (g : Grid) (x x' : Fin 64) (y y' : Fin 32) (b : Bool) :
    (g.put x y b).get x' y' = if x' = x ∧ y' = y then b else g.get x' y' := by
  simp only [Grid.get, Grid.put]
  by_cases hx : x' = x
  · subst hx
    by_cases hy : y' = y
    · subst hy; simp
    · have : y.val ≠ y'.val := fun e => hy (Fin.ext e.symm)
      simp [hy, Vector.getElem_set_ne _ _ this]
  · have : x.val ≠ x'.val := fun e => hx (Fin.ext e.symm)
    simp [hx, Vector.getElem_set_ne _ _ this]

/-- The blit `b` became `c` by flipping exactly the pixels of `lit`, each once: the dirty flag and the collision say whether
there was one, and whether one of them was on (R177, R179, R181). -/
structure Blit.Flips (b c : Blit) (lit : Fin 64 → Fin 32 → Prop) : Prop where
  on_lit : ∀ x y, lit x y → c.pix.get x y = !b.pix.get x y
  off_lit : ∀ x y, ¬ lit x y → c.pix.get x y = b.pix.get x y
  dirty_iff : c.dirty = true ↔ b.dirty = true ∨ ∃ x y, lit x y
  collision_iff : c.collision = true ↔ b.collision = true ∨ ∃ x y, lit x y ∧ b.pix.get x y = true

theorem Blit.Flips.none (b : Blit) : b.Flips b fun _ _ => False := by
  constructor <;> simp

theorem Blit.flips_toggle (b : Blit) (x : Fin 64) (y : Fin 32) : b.Flips (b.toggle x y) fun x' y' => x' = x ∧ y' = y := by
  constructor
  · rintro _ _ ⟨rfl, rfl⟩; simp [Blit.toggle, Grid.get_put]
  · intro x' y' h; simp [Blit.toggle, Grid.get_put, h]
  · simp [Blit.toggle]
  · simp [Blit.toggle]

/-- Two blits one after the other flip the union, when no pixel is in both. -/
theorem Blit.Flips.trans {b c d : Blit} {p q : Fin 64 → Fin 32 → Prop} (h1 : b.Flips c p) (h2 : c.Flips d q)
    (hd : ∀ x y, p x y → ¬ q x y) : b.Flips d fun x y => p x y ∨ q x y := by
  constructor
  · rintro x y (hp | hq)
    · rw [h2.off_lit x y (hd x y hp), h1.on_lit x y hp]
    · rw [h2.on_lit x y hq, h1.off_lit x y fun hp => hd x y hp hq]
  · intro x y h
    rw [h2.off_lit x y fun hq => h (.inr hq), h1.off_lit x y fun hp => h (.inl hp)]
  · rw [h2.dirty_iff, h1.dirty_iff]
    constructor
    · rintro ((h | ⟨x, y, h⟩) | ⟨x, y, h⟩)
      · exact .inl h
      · exact .inr ⟨x, y, .inl h⟩
      · exact .inr ⟨x, y, .inr h⟩
    · rintro (h | ⟨x, y, h | h⟩)
      · exact .inl (.inl h)
      · exact .inl (.inr ⟨x, y, h⟩)
      · exact .inr ⟨x, y, h⟩
  · rw [h2.collision_iff, h1.collision_iff]
    constructor
    · rintro ((h | ⟨x, y, h, hb⟩) | ⟨x, y, h, hb⟩)
      · exact .inl h
      · exact .inr ⟨x, y, .inl h, hb⟩
      · exact .inr ⟨x, y, .inr h, by rwa [h1.off_lit x y fun hp => hd x y hp h] at hb⟩
    · rintro (h | ⟨x, y, h | h, hb⟩)
      · exact .inl (.inl h)
      · exact .inl (.inr ⟨x, y, h, hb⟩)
      · exact .inr ⟨x, y, h, by rwa [h1.off_lit x y fun hp => hd x y hp h]⟩

theorem Blit.Flips.congr {b c : Blit} {p q : Fin 64 → Fin 32 → Prop} (h : b.Flips c p) (hpq : ∀ x y, p x y ↔ q x y) :
    b.Flips c q := by
  have : p = q := by funext x y; exact propext (hpq x y)
  exact this ▸ h

/-- The first `k` columns of a sprite row flip the pixels under their 1 bits. -/
theorem Blit.flips_columns (b : Blit) (ox : Nat) (y : Fin 32) (byte : Byte) {k : Nat} (hk : k ≤ 8) :
    b.Flips ((List.range k).foldl (fun b col => if spriteBit byte col then b.toggle (wrapColumn (ox + col)) y else b) b)
      fun cx cy => cy = y ∧ ∃ col < k, (ox + col) % 64 = cx.val ∧ spriteBit byte col = true := by
  induction k with
  | zero => exact (Blit.Flips.none b).congr (by simp)
  | succ k ih =>
    rw [List.range_succ, List.foldl_append]
    simp only [List.foldl_cons, List.foldl_nil]
    by_cases hb : spriteBit byte k = true
    · rw [if_pos hb]
      refine ((ih (by omega)).trans (Blit.flips_toggle _ _ _) ?_).congr ?_
      · rintro cx cy ⟨_, col, hcol, hx, _⟩ ⟨rfl, _⟩
        simp [wrapColumn] at hx
        omega
      · intro cx cy
        constructor
        · rintro (⟨rfl, col, hcol, hx, hs⟩ | ⟨rfl, rfl⟩)
          · exact ⟨rfl, col, by omega, hx, hs⟩
          · exact ⟨rfl, k, by omega, by simp [wrapColumn], hb⟩
        · rintro ⟨rfl, col, hcol, hx, hs⟩
          by_cases hc : col = k
          · subst hc; exact .inr ⟨Fin.ext (by simp [wrapColumn, hx]), rfl⟩
          · exact .inl ⟨rfl, col, by omega, hx, hs⟩
    · rw [if_neg hb]
      refine (ih (by omega)).congr fun cx cy => ?_
      constructor
      · rintro ⟨rfl, col, hcol, hx, hs⟩; exact ⟨rfl, col, by omega, hx, hs⟩
      · rintro ⟨rfl, col, hcol, hx, hs⟩
        have : col ≠ k := by rintro rfl; exact hb hs
        exact ⟨rfl, col, by omega, hx, hs⟩

/-- One row of a sprite flips the pixels under its 1 bits (R173). -/
theorem Blit.flips_drawRow (b : Blit) (ox : Nat) (y : Fin 32) (byte : Byte) :
    b.Flips (drawRow ox y byte b)
      fun cx cy => cy = y ∧ ∃ col < 8, (ox + col) % 64 = cx.val ∧ spriteBit byte col = true :=
  Blit.flips_columns b ox y byte (Nat.le_refl 8)

end Sys2Proof.Machine
end

