-- ==== Sys2Proof/Laws/Exec.lean ====
section
/-! SUPPORT. What the execute phase can do, said once: each meaning as one record, and the fields no instruction writes. -/

namespace Sys2Proof.Machine

/-! ## The meanings that have several cases, one equation for each case -/

theorem execCall_push {nnn : Addr12} {s : State} (h : s.sp.toNat < 16) :
    execCall nnn s = .next { s with stack := s.stack.set s.sp.toNat s.pc h, sp := s.sp + 1, pc := zextAddr nnn } := by
  simp only [execCall, dif_pos h]
  rfl

theorem execCall_overflow {nnn : Addr12} {s : State} (h : 16 ≤ s.sp.toNat) :
    execCall nnn s = .next (s.raise (.stackOverflow (s.pc - 2))) := by
  rw [execCall, dif_neg (by omega)]

theorem execRet_pop {s : State} (h0 : s.sp ≠ 0) (h : s.sp.toNat - 1 < 16) :
    execRet s = .next { s with sp := s.sp - 1, pc := s.stack[s.sp.toNat - 1] } := by
  rw [execRet, if_neg h0, dif_pos h]
  rfl

theorem execRet_underflow {s : State} (h : s.sp = 0) : execRet s = .next (s.raise (.stackUnderflow (s.pc - 2))) := by
  rw [execRet, if_pos h]

theorem execLdk_captured {x : RegIdx} {s : State} {k : KeyIdx} (h : s.wait = .captured k) :
    execLdk x s = .next { s with wait := .none, v := s.v.set x (BitVec.ofNat 8 k.val) } := by
  rw [execLdk, h]
  rfl

theorem execLdk_stalls {x : RegIdx} {s : State} (h : ∀ k, s.wait ≠ .captured k) :
    execLdk x s = .next { s with wait := .armed, pc := s.pc - 2 } := by
  unfold execLdk
  cases hw : s.wait with
  | none => rfl
  | armed => rfl
  | captured k => exact absurd hw (h k)

theorem execLdb_stores {x : RegIdx} {s : State} (h : s.i.toNat + 2 < 4096) :
    execLdb x s = .next { s with mem := Memory.writeBlock s.i.toNat (bcdDigits s.v[x]) s.mem } := by
  have hn : firstOutOfBounds s.indexAddr 3 = none := firstOutOfBounds_eq_none.2 (.inr h)
  rw [execLdb, hn]
  rfl

theorem execLdb_faults {x : RegIdx} {s : State} (h : 4096 ≤ s.i.toNat + 2) :
    execLdb x s = .next { s with mem := Memory.writeWhere s.lands s.i.toNat (bcdDigits s.v[x]) s.mem
                                 freeCount := s.freeCount + 1
                                 fault := some (.memoryOutOfBounds (max s.i.toNat 4096)) } := by
  have hn : firstOutOfBounds s.indexAddr 3 = some (max s.i.toNat 4096) :=
    firstOutOfBounds_eq_some (by decide) (Nat.lt_succ_of_le h)
  rw [execLdb, hn]
  rfl

theorem execLdi_stores {x : RegIdx} {s : State} (h : s.i.toNat + x.val < 4096) :
    execLdi x s = .next { s with
      mem := Memory.writeBlock s.i.toNat (s.regBlock x) s.mem
      i := if s.settings.incrementIRegister then BitVec.ofNat 16 (s.i.toNat + x.val + 1) else s.i } := by
  have hn : firstOutOfBounds s.indexAddr (blockLen x) = none := firstOutOfBounds_eq_none.2 (.inr h)
  rw [execLdi, hn]
  simp only [State.bumpIndex_eq]
  rfl

theorem execLdi_faults {x : RegIdx} {s : State} (h : 4096 ≤ s.i.toNat + x.val) :
    execLdi x s = .next { s with mem := Memory.writeWhere s.lands s.i.toNat (s.regBlock x) s.mem
                                 freeCount := s.freeCount + 1
                                 fault := some (.memoryOutOfBounds (max s.i.toNat 4096)) } := by
  have hn : firstOutOfBounds s.indexAddr (blockLen x) = some (max s.i.toNat 4096) :=
    firstOutOfBounds_eq_some (Nat.succ_pos _) (Nat.lt_succ_of_le h)
  rw [execLdi, hn]
  rfl

theorem execLdj_loads {x : RegIdx} {s : State} (h : s.i.toNat + x.val < 4096) :
    execLdj x s = .next { s with
      v := loadedRegs s (fun _ => true) s.i.toNat x
      i := if s.settings.incrementIRegister then BitVec.ofNat 16 (s.i.toNat + x.val + 1) else s.i } := by
  have hn : firstOutOfBounds s.indexAddr (blockLen x) = none := firstOutOfBounds_eq_none.2 (.inr h)
  rw [execLdj, hn]
  simp only [State.bumpIndex_eq]
  rfl

theorem execLdj_faults {x : RegIdx} {s : State} (h : 4096 ≤ s.i.toNat + x.val) :
    execLdj x s = .next { s with v := loadedRegs s s.lands s.i.toNat x
                                 freeCount := s.freeCount + 1
                                 fault := some (.memoryOutOfBounds (max s.i.toNat 4096)) } := by
  have hn : firstOutOfBounds s.indexAddr (blockLen x) = some (max s.i.toNat 4096) :=
    firstOutOfBounds_eq_some (Nat.succ_pos _) (Nat.lt_succ_of_le h)
  rw [execLdj, hn]
  rfl

/-- What the two key skips can do: move pc by a skip, or raise; nothing else (R194). -/
theorem State.skipOnKey_cases (s : State) (x : RegIdx) (down : Bool) :
    (∃ c, s.skipOnKey x down = s.skipIf c) ∨ ∃ f, s.skipOnKey x down = s.raise f := by
  unfold State.skipOnKey
  split
  · exact .inl ⟨_, rfl⟩
  · exact .inr ⟨_, rfl⟩

/-! ## The key events, as one record -/

theorem State.keyDown_eq (s : State) (k : KeyIdx) : s.keyDown k =
    { s with key := s.key.set k true, wait := if s.wait = .armed then .captured k else s.wait } := by
  cases h : s.wait <;> simp [State.keyDown, h, State.setKey, State.withKey, State.withWait]

theorem State.keyUp_eq (s : State) (k : KeyIdx) : s.keyUp k =
    { s with key := s.key.set k false, wait := if s.wait = .captured k then .armed else s.wait } := by
  cases h : s.wait with
  | captured j => by_cases e : j = k <;> simp [State.keyUp, h, e, State.setKey, State.withKey, State.withWait]
  | none => simp [State.keyUp, h, State.setKey, State.withKey]
  | armed => simp [State.keyUp, h, State.setKey, State.withKey]

/-! ## What no instruction writes -/

/-- The fields no instruction writes: the parameters, the clocks, the key table, the tone and the schedule (R32, R35, R38,
R39, R97). -/
def State.SameOutside (s t : State) : Prop :=
  t.settings = s.settings ∧ t.sysFatal = s.sysFatal ∧ t.cpuClock = s.cpuClock ∧ t.delayClock = s.delayClock ∧
  t.soundClock = s.soundClock ∧ t.key = s.key ∧ t.tone = s.tone ∧ t.schedule = s.schedule ∧ t.eventCount = s.eventCount

/-- Every instruction leaves those fields as they were. -/
theorem exec_sameOutside {i : Instr} {s t : State} (h : exec i s = .next t) : s.SameOutside t := by
  cases i
  case call nnn =>
    by_cases hs : s.sp.toNat < 16
    · simp only [exec, execCall_push hs, Host.Outcome.next.injEq] at h; subst h; simp [State.SameOutside]
    · simp only [exec, execCall_overflow (Nat.le_of_not_lt hs), Host.Outcome.next.injEq] at h
      subst h; simp [State.SameOutside, State.raise]
  case ret =>
    simp only [exec, execRet] at h
    split at h
    · cases h; simp [State.SameOutside, State.raise]
    · split at h
      · cases h; simp [State.SameOutside]
      · cases h
  case ldk x =>
    simp only [exec, execLdk] at h
    split at h <;> cases h <;> simp [State.SameOutside, State.rewindPc, State.setReg]
  case skp x =>
    simp only [exec, execSkp, Host.Outcome.next.injEq] at h
    subst h
    rcases s.skipOnKey_cases x true with ⟨c, hc⟩ | ⟨f, hf⟩
    · simp [hc, State.SameOutside, State.skipIf_eq]
    · simp [hf, State.SameOutside, State.raise]
  case sknp x =>
    simp only [exec, execSknp, Host.Outcome.next.injEq] at h
    subst h
    rcases s.skipOnKey_cases x false with ⟨c, hc⟩ | ⟨f, hf⟩
    · simp [hc, State.SameOutside, State.skipIf_eq]
    · simp [hf, State.SameOutside, State.raise]
  case ldb x =>
    simp only [exec, execLdb] at h
    split at h <;> cases h <;> simp [State.SameOutside, State.storeFaulting_eq]
  case ldi x =>
    simp only [exec, execLdi] at h
    split at h <;> cases h <;> simp [State.SameOutside, State.storeFaulting_eq, State.bumpIndex_eq]
  case ldj x =>
    simp only [exec, execLdj] at h
    split at h <;> cases h <;> simp [State.SameOutside, State.loadFaulting_eq, State.bumpIndex_eq]
  case drw x y n =>
    simp only [exec, execDrw] at h
    split at h <;> cases h <;> simp [State.SameOutside, State.raise, State.setFlag, State.setReg]
  case sys nnn =>
    simp only [exec, execSys, Host.Outcome.next.injEq] at h
    subst h
    split <;> simp [State.SameOutside, State.raise]
  case addi x =>
    simp only [exec, execAddi, Host.Outcome.next.injEq] at h
    subst h
    split <;> simp [State.SameOutside, State.setFlag, State.setReg]
  all_goals
    simp only [exec, execCls, execJp, execSeImm, execSneImm, execSeReg, execSneReg, execLdImm, execAddImm, execLdReg,
      execOr, execAnd, execXor, execAddReg, execSub, execSubn, execShr, execShl, execLda, execJpv, execRnd, execLdt,
      execLdf, execLds, execLdspr, Host.Outcome.next.injEq] at h
    subst h
    simp [State.SameOutside, State.skipIf_eq, State.setReg, State.setResultAndFlag_eq, State.clearDisplay, State.countFree]

end Sys2Proof.Machine
end

