-- ==== Sys2Proof/Laws/PerInstr.lean ====
section
/-! SUPPORT. Statements about every instruction as syntax, one lemma per constructor. FixedBits: the bits of an instruction's
word that its pattern in spec 30_encoding.md R82 fixes are the pattern's: the family nibble, and the function nibble or byte. -/

namespace Sys2Proof.Laws.FixedBits

/-- The family nibble of an instruction's pattern (R82). -/
def family : Instr → Nat
  | .cls => 0x0
  | .ret => 0x0
  | .sys _ => 0x0
  | .jp _ => 0x1
  | .call _ => 0x2
  | .seImm _ _ => 0x3
  | .sneImm _ _ => 0x4
  | .seReg _ _ => 0x5
  | .ldImm _ _ => 0x6
  | .addImm _ _ => 0x7
  | .ldReg _ _ => 0x8
  | .or _ _ => 0x8
  | .and _ _ => 0x8
  | .xor _ _ => 0x8
  | .addReg _ _ => 0x8
  | .sub _ _ => 0x8
  | .shr _ _ => 0x8
  | .subn _ _ => 0x8
  | .shl _ _ => 0x8
  | .sneReg _ _ => 0x9
  | .lda _ => 0xA
  | .jpv _ => 0xB
  | .rnd _ _ => 0xC
  | .drw _ _ _ => 0xD
  | .skp _ => 0xE
  | .sknp _ => 0xE
  | .ldt _ => 0xF
  | .ldk _ => 0xF
  | .ldf _ => 0xF
  | .lds _ => 0xF
  | .addi _ => 0xF
  | .ldspr _ => 0xF
  | .ldb _ => 0xF
  | .ldi _ => 0xF
  | .ldj _ => 0xF

/-- The fixed low bits of a pattern: none, a function nibble, or a function byte (R72, R82). -/
inductive LowBits where
  | free
  | nibble (n : Nat)
  | byte (b : Nat)

/-- The fixed low bits of an instruction's pattern (R82). -/
def lowBits : Instr → LowBits
  | .cls => .byte 0xE0
  | .ret => .byte 0xEE
  | .sys _ => .free
  | .jp _ => .free
  | .call _ => .free
  | .seImm _ _ => .free
  | .sneImm _ _ => .free
  | .seReg _ _ => .nibble 0x0
  | .ldImm _ _ => .free
  | .addImm _ _ => .free
  | .ldReg _ _ => .nibble 0x0
  | .or _ _ => .nibble 0x1
  | .and _ _ => .nibble 0x2
  | .xor _ _ => .nibble 0x3
  | .addReg _ _ => .nibble 0x4
  | .sub _ _ => .nibble 0x5
  | .shr _ _ => .nibble 0x6
  | .subn _ _ => .nibble 0x7
  | .shl _ _ => .nibble 0xE
  | .sneReg _ _ => .nibble 0x0
  | .lda _ => .free
  | .jpv _ => .free
  | .rnd _ _ => .free
  | .drw _ _ _ => .free
  | .skp _ => .byte 0x9E
  | .sknp _ => .byte 0xA1
  | .ldt _ => .byte 0x07
  | .ldk _ => .byte 0x0A
  | .ldf _ => .byte 0x15
  | .lds _ => .byte 0x18
  | .addi _ => .byte 0x1E
  | .ldspr _ => .byte 0x29
  | .ldb _ => .byte 0x33
  | .ldi _ => .byte 0x55
  | .ldj _ => .byte 0x65

/-- The word of `i` has its pattern's fixed bits. -/
def Statement (i : Instr) : Prop :=
  (encode i).toNat / 0x1000 = family i ∧
  match lowBits i with
  | .free => True
  | .nibble n => (encode i).toNat % 0x10 = n
  | .byte b => (encode i).toNat % 0x100 = b

theorem packNNN_toNat {op : Nat} (nnn : Addr12) (h : op < 16) : (packNNN op nnn).toNat = op * 0x1000 + nnn.toNat := by
  have := nnn.isLt
  simp only [packNNN, BitVec.toNat_ofNat]
  omega

theorem packXKK_toNat {op : Nat} (x : RegIdx) (kk : Byte) (h : op < 16) :
    (packXKK op x kk).toNat = op * 0x1000 + x.val * 0x100 + kk.toNat := by
  have := kk.isLt
  have := x.isLt
  simp only [packXKK, BitVec.toNat_ofNat]
  omega

theorem packXYN_toNat {op : Nat} (x y : RegIdx) (n : Fin 16) (h : op < 16) :
    (packXYN op x y n).toNat = op * 0x1000 + x.val * 0x100 + y.val * 0x10 + n.val := by
  have := x.isLt
  have := y.isLt
  have := n.isLt
  simp only [packXYN, BitVec.toNat_ofNat]
  omega

/-- Format NNN: only the family nibble is fixed. -/
theorem of_packNNN {op : Nat} (nnn : Addr12) (h : op < 16) : (packNNN op nnn).toNat / 0x1000 = op := by
  have := nnn.isLt
  rw [packNNN_toNat nnn h]
  omega

/-- Formats XKK and X: the family nibble, and the low byte is `kk`. -/
theorem of_packXKK {op : Nat} (x : RegIdx) (kk : Byte) (h : op < 16) :
    (packXKK op x kk).toNat / 0x1000 = op ∧ (packXKK op x kk).toNat % 0x100 = kk.toNat := by
  have := kk.isLt
  have := x.isLt
  rw [packXKK_toNat x kk h]
  omega

/-- Formats XY and XYN: the family nibble, and the low nibble is `n`. -/
theorem of_packXYN {op : Nat} (x y : RegIdx) (n : Fin 16) (h : op < 16) :
    (packXYN op x y n).toNat / 0x1000 = op ∧ (packXYN op x y n).toNat % 0x10 = n.val := by
  have := x.isLt
  have := y.isLt
  have := n.isLt
  rw [packXYN_toNat x y n h]
  omega

theorem cls : Statement .cls := ⟨rfl, rfl⟩
theorem ret : Statement .ret := ⟨rfl, rfl⟩
theorem sys (nnn : Addr12) : Statement (.sys nnn) := ⟨of_packNNN nnn (by decide), trivial⟩
theorem jp (nnn : Addr12) : Statement (.jp nnn) := ⟨of_packNNN nnn (by decide), trivial⟩
theorem call (nnn : Addr12) : Statement (.call nnn) := ⟨of_packNNN nnn (by decide), trivial⟩
theorem seImm (x : RegIdx) (kk : Byte) : Statement (.seImm x kk) := ⟨(of_packXKK x kk (by decide)).1, trivial⟩
theorem sneImm (x : RegIdx) (kk : Byte) : Statement (.sneImm x kk) := ⟨(of_packXKK x kk (by decide)).1, trivial⟩
theorem seReg (x : RegIdx) (y : RegIdx) : Statement (.seReg x y) := of_packXYN x y _ (by decide)
theorem ldImm (x : RegIdx) (kk : Byte) : Statement (.ldImm x kk) := ⟨(of_packXKK x kk (by decide)).1, trivial⟩
theorem addImm (x : RegIdx) (kk : Byte) : Statement (.addImm x kk) := ⟨(of_packXKK x kk (by decide)).1, trivial⟩
theorem ldReg (x : RegIdx) (y : RegIdx) : Statement (.ldReg x y) := of_packXYN x y _ (by decide)
theorem or (x : RegIdx) (y : RegIdx) : Statement (.or x y) := of_packXYN x y _ (by decide)
theorem and (x : RegIdx) (y : RegIdx) : Statement (.and x y) := of_packXYN x y _ (by decide)
theorem xor (x : RegIdx) (y : RegIdx) : Statement (.xor x y) := of_packXYN x y _ (by decide)
theorem addReg (x : RegIdx) (y : RegIdx) : Statement (.addReg x y) := of_packXYN x y _ (by decide)
theorem sub (x : RegIdx) (y : RegIdx) : Statement (.sub x y) := of_packXYN x y _ (by decide)
theorem shr (x : RegIdx) (y : RegIdx) : Statement (.shr x y) := of_packXYN x y _ (by decide)
theorem subn (x : RegIdx) (y : RegIdx) : Statement (.subn x y) := of_packXYN x y _ (by decide)
theorem shl (x : RegIdx) (y : RegIdx) : Statement (.shl x y) := of_packXYN x y _ (by decide)
theorem sneReg (x : RegIdx) (y : RegIdx) : Statement (.sneReg x y) := of_packXYN x y _ (by decide)
theorem lda (nnn : Addr12) : Statement (.lda nnn) := ⟨of_packNNN nnn (by decide), trivial⟩
theorem jpv (nnn : Addr12) : Statement (.jpv nnn) := ⟨of_packNNN nnn (by decide), trivial⟩
theorem rnd (x : RegIdx) (kk : Byte) : Statement (.rnd x kk) := ⟨(of_packXKK x kk (by decide)).1, trivial⟩
theorem drw (x : RegIdx) (y : RegIdx) (n : Fin 16) : Statement (.drw x y n) := ⟨(of_packXYN x y n (by decide)).1, trivial⟩
theorem skp (x : RegIdx) : Statement (.skp x) := of_packXKK x _ (by decide)
theorem sknp (x : RegIdx) : Statement (.sknp x) := of_packXKK x _ (by decide)
theorem ldt (x : RegIdx) : Statement (.ldt x) := of_packXKK x _ (by decide)
theorem ldk (x : RegIdx) : Statement (.ldk x) := of_packXKK x _ (by decide)
theorem ldf (x : RegIdx) : Statement (.ldf x) := of_packXKK x _ (by decide)
theorem lds (x : RegIdx) : Statement (.lds x) := of_packXKK x _ (by decide)
theorem addi (x : RegIdx) : Statement (.addi x) := of_packXKK x _ (by decide)
theorem ldspr (x : RegIdx) : Statement (.ldspr x) := of_packXKK x _ (by decide)
theorem ldb (x : RegIdx) : Statement (.ldb x) := of_packXKK x _ (by decide)
theorem ldi (x : RegIdx) : Statement (.ldi x) := of_packXKK x _ (by decide)
theorem ldj (x : RegIdx) : Statement (.ldj x) := of_packXKK x _ (by decide)

end Sys2Proof.Laws.FixedBits
end

