-- ==== Sys2Proof/Laws/Step.lean ====
section
/-! SUPPORT. What a cycle and a step can do, said once: every proof about a step starts from `step_cases` and `cycle_cases`. -/

namespace Sys2Proof.Machine

open Sys2Proof.Config (ClockId HostEvent)

/-- A cycle that answers a next state either raised a fault and changed nothing else, or executed the decoded instruction
after the advance (R90). -/
theorem cycle_cases {s t : State} (h : cycle s = .next t) :
    (∃ f, t = s.raise f) ∨
    ∃ w i, s.fetch = .ok w ∧ decode w = .ok i ∧ exec i s.advancePc = .next t := by
  unfold cycle at h
  split at h
  · cases h; exact .inl ⟨_, rfl⟩
  · next w hw =>
    split at h
    · cases h; exact .inl ⟨_, rfl⟩
    · next i hi => exact .inr ⟨w, i, hw, hi, h⟩

/-- A cycle that decodes an instruction executes it after the advance (R90, R92). -/
theorem cycle_of_decode {s : State} {w : Word} {i : Instr} (hw : s.fetch = .ok w) (hi : decode w = .ok i) :
    cycle s = exec i s.advancePc := by
  simp [cycle, hw, hi]

/-- Taking the next step off the list, or counting it, changes `schedule` and `eventCount` only (log 9). -/
theorem State.takeEvent_eq (s : State) : s.takeEvent =
    { s with schedule := s.schedule.tail
             eventCount := if s.schedule = [] then s.eventCount + 1 else s.eventCount } := by
  unfold State.takeEvent
  split
  · next h => simp [h, State.withEventCount]
  · next h => simp [h, State.withSchedule]

@[simp] theorem State.takeEvent_v (s : State) : s.takeEvent.v = s.v := by rw [State.takeEvent_eq]
@[simp] theorem State.takeEvent_i (s : State) : s.takeEvent.i = s.i := by rw [State.takeEvent_eq]
@[simp] theorem State.takeEvent_pc (s : State) : s.takeEvent.pc = s.pc := by rw [State.takeEvent_eq]
@[simp] theorem State.takeEvent_sp (s : State) : s.takeEvent.sp = s.sp := by rw [State.takeEvent_eq]
@[simp] theorem State.takeEvent_stack (s : State) : s.takeEvent.stack = s.stack := by rw [State.takeEvent_eq]
@[simp] theorem State.takeEvent_dt (s : State) : s.takeEvent.dt = s.dt := by rw [State.takeEvent_eq]
@[simp] theorem State.takeEvent_st (s : State) : s.takeEvent.st = s.st := by rw [State.takeEvent_eq]
@[simp] theorem State.takeEvent_mem (s : State) : s.takeEvent.mem = s.mem := by rw [State.takeEvent_eq]
@[simp] theorem State.takeEvent_key (s : State) : s.takeEvent.key = s.key := by rw [State.takeEvent_eq]
@[simp] theorem State.takeEvent_wait (s : State) : s.takeEvent.wait = s.wait := by rw [State.takeEvent_eq]
@[simp] theorem State.takeEvent_pix (s : State) : s.takeEvent.pix = s.pix := by rw [State.takeEvent_eq]
@[simp] theorem State.takeEvent_dirty (s : State) : s.takeEvent.dirty = s.dirty := by rw [State.takeEvent_eq]
@[simp] theorem State.takeEvent_tone (s : State) : s.takeEvent.tone = s.tone := by rw [State.takeEvent_eq]
@[simp] theorem State.takeEvent_fault (s : State) : s.takeEvent.fault = s.fault := by rw [State.takeEvent_eq]
@[simp] theorem State.takeEvent_settings (s : State) : s.takeEvent.settings = s.settings := by rw [State.takeEvent_eq]
@[simp] theorem State.takeEvent_sysFatal (s : State) : s.takeEvent.sysFatal = s.sysFatal := by rw [State.takeEvent_eq]
@[simp] theorem State.takeEvent_cpuClock (s : State) : s.takeEvent.cpuClock = s.cpuClock := by rw [State.takeEvent_eq]
@[simp] theorem State.takeEvent_delayClock (s : State) : s.takeEvent.delayClock = s.delayClock := by rw [State.takeEvent_eq]
@[simp] theorem State.takeEvent_soundClock (s : State) : s.takeEvent.soundClock = s.soundClock := by rw [State.takeEvent_eq]
@[simp] theorem State.takeEvent_freeCount (s : State) : s.takeEvent.freeCount = s.freeCount := by rw [State.takeEvent_eq]

@[simp] theorem State.clock_takeEvent (s : State) (c : ClockId) : s.takeEvent.clock c = s.clock c := by
  rw [State.takeEvent_eq]; cases c <;> rfl

/-- What a listed step is and leaves: the list's head, and the list's tail. -/
theorem State.nextEvent_cons {s : State} {e : HostEvent} {rest : List HostEvent} (h : s.schedule = e :: rest) :
    s.nextEvent = e ∧ s.takeEvent = s.withSchedule rest := by
  simp [State.nextEvent, State.takeEvent, h]

/-- With nothing listed the next step is the outer loop's own choice, and is counted. -/
theorem State.nextEvent_nil {s : State} (h : s.schedule = []) :
    s.nextEvent = Config.outerLoopEvent s.eventCount ∧ s.takeEvent = s.withEventCount (s.eventCount + 1) := by
  simp [State.nextEvent, State.takeEvent, h]

/-- The state a CPU cycle starts from in a step: the fire is taken and counted on the clock (R39). -/
def State.fired (s : State) : State := s.takeEvent.withCpuClock s.cpuClock.advance

/-- The state a CPU cycle starts from, as one record. -/
theorem State.fired_eq (s : State) : s.fired =
    { s with cpuClock := s.cpuClock.advance, schedule := s.schedule.tail
             eventCount := if s.schedule = [] then s.eventCount + 1 else s.eventCount } := by
  rw [State.fired, State.takeEvent_eq]; rfl

/-- The fetch a step makes is that of the state it starts in. -/
theorem fetch_fired (s : State) : s.fired.fetch = s.fetch := by
  rw [State.fired_eq]; exact State.fetch_congr rfl rfl

/-- While no fault is latched, a step takes the next event and delivers it, `Quit` apart (R15, R230, R232). -/
theorem step_of_event {s : State} {e : HostEvent} (hf : s.fault = none) (hs : s.nextEvent = e) (hq : e ≠ .quit) :
    step s = deliver e s.takeEvent := by
  unfold step coreStep
  rw [hf]
  simp only [runOuterLoop, hs]

/-- At `Quit` a step changes nothing (R233, log 11). -/
theorem step_of_quit {s : State} (hf : s.fault = none) (hs : s.nextEvent = .quit) : step s = .next s := by
  unfold step coreStep
  rw [hf]
  simp only [runOuterLoop, hs, deliver]

/-- While no fault is latched and the CPU clock fires next, the step is a CPU cycle (R90, R229). -/
theorem step_of_cpu {s : State} (hf : s.fault = none) (hs : s.nextEvent = .fire .cpu) : step s = cycle s.fired := by
  rw [step_of_event hf hs (by simp), State.fired]
  have hc : s.takeEvent.cpuClock = s.cpuClock := s.clock_takeEvent .cpu
  rw [← hc]
  rfl

/-- What a fire can do, from the state that took it. -/
theorem fireClock_cases {s t : State} {c : ClockId} (h : fireClock c s = .next t) :
    (c = .cpu ∧ cycle (s.withCpuClock s.cpuClock.advance) = .next t) ∨
    (c = .delay ∧ t = (s.withDelayClock s.delayClock.advance).tickDelay) ∨
    (c = .sound ∧ t = (s.withSoundClock s.soundClock.advance).tickSound) := by
  cases c
  · exact .inl ⟨rfl, h⟩
  · cases h; exact .inr (.inl ⟨rfl, rfl⟩)
  · cases h; exact .inr (.inr ⟨rfl, rfl⟩)

/-- What one step can do: the core runs, and the step is a CPU cycle, a delay tick, a sound tick, a key event, a flush, or
nothing but the next event being taken, or not even that (R15, R40, R232). -/
theorem step_cases {s t : State} (h : step s = .next t) :
    s.fault = none ∧
    (cycle s.fired = .next t ∨
     t = (s.takeEvent.withDelayClock s.delayClock.advance).tickDelay ∨
     t = (s.takeEvent.withSoundClock s.soundClock.advance).tickSound ∨
     (∃ k, s.nextEvent = .keyDown k ∧ t = s.takeEvent.keyDown k) ∨
     (∃ k, s.nextEvent = .keyUp k ∧ t = s.takeEvent.keyUp k) ∨
     (s.nextEvent = .flush ∧ t = s.takeEvent.withDirty false) ∨
     t = s.takeEvent ∨ t = s) := by
  have hf : s.fault = none := by
    unfold step coreStep at h
    split at h
    · cases h
    · assumption
  refine ⟨hf, ?_⟩
  have fire : ∀ c, fireClock c s.takeEvent = .next t →
      cycle s.fired = .next t ∨
      t = (s.takeEvent.withDelayClock s.delayClock.advance).tickDelay ∨
      t = (s.takeEvent.withSoundClock s.soundClock.advance).tickSound := by
    intro c hc
    have h1 : s.takeEvent.cpuClock = s.cpuClock := s.clock_takeEvent .cpu
    have h2 : s.takeEvent.delayClock = s.delayClock := s.clock_takeEvent .delay
    have h3 : s.takeEvent.soundClock = s.soundClock := s.clock_takeEvent .sound
    have := fireClock_cases hc
    rw [h1, h2, h3] at this
    rcases this with ⟨_, h⟩ | ⟨_, h⟩ | ⟨_, h⟩
    · exact .inl h
    · exact .inr (.inl h)
    · exact .inr (.inr h)
  have fired : ∀ {p : Prop}, (cycle s.fired = .next t ∨
      t = (s.takeEvent.withDelayClock s.delayClock.advance).tickDelay ∨
      t = (s.takeEvent.withSoundClock s.soundClock.advance).tickSound) →
      cycle s.fired = .next t ∨ t = (s.takeEvent.withDelayClock s.delayClock.advance).tickDelay ∨
        t = (s.takeEvent.withSoundClock s.soundClock.advance).tickSound ∨ p := by
    rintro p (h | h | h)
    · exact .inl h
    · exact .inr (.inl h)
    · exact .inr (.inr (.inl h))
  cases he : s.nextEvent with
  | quit =>
    rw [step_of_quit hf he] at h
    cases h
    simp
  | fire c =>
    rw [step_of_event hf he (by simp)] at h
    exact fired (fire c h)
  | poll c now =>
    rw [step_of_event hf he (by simp)] at h
    simp only [deliver] at h
    split at h
    · exact fired (fire c h)
    · cases h; simp
  | keyDown k =>
    rw [step_of_event hf he (by simp)] at h
    cases h
    exact .inr (.inr (.inr (.inl ⟨k, rfl, rfl⟩)))
  | keyUp k =>
    rw [step_of_event hf he (by simp)] at h
    cases h
    exact .inr (.inr (.inr (.inr (.inl ⟨k, rfl, rfl⟩))))
  | noEvent =>
    rw [step_of_event hf he (by simp)] at h
    cases h
    simp
  | flush =>
    rw [step_of_event hf he (by simp)] at h
    cases h
    exact .inr (.inr (.inr (.inr (.inr (.inl ⟨rfl, rfl⟩)))))

end Sys2Proof.Machine
end

