-- ==== Sys2Proof/Tests/Slice0.lean ====
section
/-! SUPPORT. The model's own tests: the WellFormed smoke, decodings of words written from the patterns of the spec's R82, one
step on small states with the results of the spec's vectors (95_test_vectors.md), and for each statement with hypotheses a
witness that meets them all. -/

namespace Sys2Proof.Tests

open Sys2Proof Sys2Proof.Machine
open Sys2Proof.Config (HostEvent)

/-! ## Helpers -/

/-- The reset state with the given registers set. -/
def regs (l : List (RegIdx × Byte)) : State := l.foldl (fun s p => s.setReg p.1 p.2) State.reset

/-- The outcome is a next state for which `p` holds. -/
def nextIs (o : Host.Outcome State Fault Refusal) (p : State → Bool) : Bool :=
  match o with
  | .next t => p t
  | .fault _ => false
  | .refused _ => false

/-- The state a next outcome holds, and the reset state for the others. -/
def after (o : Host.Outcome State Fault Refusal) : State :=
  match o with
  | .next t => t
  | .fault _ => State.reset
  | .refused _ => State.reset

/-- An outcome that is a next state is the next state `after` gives. -/
theorem answers {o : Host.Outcome State Fault Refusal} (h : nextIs o (fun _ => true) = true) : o = .next (after o) := by
  cases o with
  | next t => rfl
  | fault f => cases h
  | refused r => cases h

/-- The reset state with the CPU clock firing next. -/
def ready : State := State.reset.withCpuFires 1

/-- The reset state with the bytes loaded as a program at 0x200, and the CPU clock firing next. -/
def prog (bytes : List Byte) : State := ready.load (some bytes)

/-- The pixels of a display that are on, as pairs (column, row), of the columns and rows listed. -/
def lit (s : State) (xs : List (Fin 64)) (ys : List (Fin 32)) : List (Nat × Nat) :=
  xs.flatMap fun x => (ys.filter fun y => s.pixelAt x y).map fun y => (x.val, y.val)

/-! ## WellFormed: each check refuses an ill-formed term -/

theorem test_wellFormed_refuses_sys_of_cls_word : Instr.wellFormed (.sys 0x0E0) = false := by decide

theorem test_wellFormed_refuses_sys_of_ret_word : Instr.wellFormed (.sys 0x0EE) = false := by decide

theorem test_wellFormed_takes_the_others : Instr.wellFormed (.sys 0x0E1) = true ∧ Instr.wellFormed .cls = true := by decide

/-! ## Decode: every constructor from a word written from its pattern in R82 -/

theorem test_decode_family0 :
    decode 0b0000000011100000 = .ok .cls ∧ decode 0b0000000011101110 = .ok .ret ∧
    decode 0x0000 = .ok (.sys 0x000) ∧ decode 0x00E1 = .ok (.sys 0x0E1) ∧ decode 0x0EE0 = .ok (.sys 0xEE0) := by decide

theorem test_decode_addresses :
    decode 0b0001101010111100 = .ok (.jp 0xABC) ∧ decode 0b0010101010111100 = .ok (.call 0xABC) ∧
    decode 0b1010001100000000 = .ok (.lda 0x300) ∧ decode 0b1011111111111111 = .ok (.jpv 0xFFF) := by decide

theorem test_decode_immediates :
    decode 0b0011101000010010 = .ok (.seImm 0xA 0x12) ∧ decode 0b0100101000010010 = .ok (.sneImm 0xA 0x12) ∧
    decode 0b0110101010011100 = .ok (.ldImm 0xA 0x9C) ∧ decode 0b0111000111111111 = .ok (.addImm 1 0xFF) ∧
    decode 0b1100001100001111 = .ok (.rnd 3 0x0F) := by decide

theorem test_decode_register_pairs :
    decode 0b0101101010110000 = .ok (.seReg 0xA 0xB) ∧ decode 0b1001101010110000 = .ok (.sneReg 0xA 0xB) ∧
    decode 0b1101101010110000 = .ok (.drw 0xA 0xB 0) ∧ decode 0b1101000000010101 = .ok (.drw 0 1 5) := by decide

theorem test_decode_family8 :
    decode 0b1000000100100000 = .ok (.ldReg 1 2) ∧ decode 0b1000000100100001 = .ok (.or 1 2) ∧
    decode 0b1000000100100010 = .ok (.and 1 2) ∧ decode 0b1000000100100011 = .ok (.xor 1 2) ∧
    decode 0b1000101010110100 = .ok (.addReg 0xA 0xB) ∧ decode 0b1000000100100101 = .ok (.sub 1 2) ∧
    decode 0b1000000100100110 = .ok (.shr 1 2) ∧ decode 0b1000000100100111 = .ok (.subn 1 2) ∧
    decode 0b1000101010111110 = .ok (.shl 0xA 0xB) := by decide

theorem test_decode_familyE :
    decode 0b1110000110011110 = .ok (.skp 1) ∧ decode 0b1110000110100001 = .ok (.sknp 1) := by decide

theorem test_decode_familyF :
    decode 0b1111001100000111 = .ok (.ldt 3) ∧ decode 0b1111000100001010 = .ok (.ldk 1) ∧
    decode 0b1111001100010101 = .ok (.ldf 3) ∧ decode 0b1111001100011000 = .ok (.lds 3) ∧
    decode 0b1111000100011110 = .ok (.addi 1) ∧ decode 0b1111000100101001 = .ok (.ldspr 1) ∧
    decode 0b1111101000110011 = .ok (.ldb 0xA) ∧ decode 0b1111000101010101 = .ok (.ldi 1) ∧
    decode 0b1111000101100101 = .ok (.ldj 1) := by decide

theorem test_decode_refuses_by_name :
    decode 0x5AB1 = .error (.unknownOpcode 0x5AB1) ∧ decode 0x8AB8 = .error (.unknownOpcode 0x8AB8) ∧
    decode 0x8ABF = .error (.unknownOpcode 0x8ABF) ∧ decode 0x9ABF = .error (.unknownOpcode 0x9ABF) ∧
    decode 0xE1A2 = .error (.unknownOpcode 0xE1A2) ∧ decode 0xF166 = .error (.unknownOpcode 0xF166) ∧
    decode 0xFFFF = .error (.unknownOpcode 0xFFFF) ∧ decodeBytes [0x60] = .error .truncated := by decide

theorem test_decodeTableWord : decodeTableWord 16 0x6A9C = some (.ldImm 0xA 0x9C) ∧ decodeTableWord 16 0xFFFF = none := by
  decide

/-! ## The cycle (vectors V-CYC) -/

theorem test_cycle_runs_the_word_at_pc :
    nextIs (step (prog [0x60, 0x2A])) (fun t => t.v[0] == 0x2A && t.pc == 0x202) = true := by decide

theorem test_cycle_at_an_odd_address :
    nextIs (step { ready with pc := 0x201, mem := [(0x201, 0x61), (0x202, 0x07)] })
      (fun t => t.v[1] == 0x07 && t.pc == 0x203) = true := by decide

theorem test_unknown_word_latches_before_the_advance :
    nextIs (step (prog [0xFF, 0xFF])) (fun t => t.fault == some (.unknownOpcode 0xFFFF) && t.pc == 0x200) = true := by decide

theorem test_fetch_across_the_end :
    nextIs (step { ready with pc := 0xFFF }) (fun t => t.fault == some (.memoryOutOfBounds 0x1000) && t.pc == 0xFFF) =
      true := by decide

theorem test_withFetchWord_is_run_first :
    nextIs (step (State.reset.withFetchWord 16 0x6A9C)) (fun t => t.v[0xA] == 0x9C && t.pc == 0x202) = true := by decide

theorem test_withFetchWord_after_a_fault_at_the_end_of_memory :
    nextIs (step (State.withFetchWord
      { State.reset with pc := 0xFFF, fault := some .loadUnreadable, schedule := [.flush] } 16 0x6A9C))
      (fun t => t.v[0xA] == 0x9C && t.pc == 0x202) = true := by decide

/-! ## One instruction each (vectors V-SK, V-ALU, V-CT, V-IM, V-DR, V-KB, V-TM, L1); `pc` is that of the next word -/

theorem test_seImm :
    nextIs (step { prog [0x33, 0x2A] with v := (regs [(3, 0x2A)]).v }) (fun t => t.pc == 0x204) = true ∧
    nextIs (step { prog [0x33, 0x2A] with v := (regs [(3, 0x2B)]).v }) (fun t => t.pc == 0x202) = true := by decide

theorem test_sneImm : nextIs (step { prog [0x43, 0x2A] with v := (regs [(3, 0x2B)]).v }) (fun t => t.pc == 0x204) = true := by
  decide

theorem test_seReg : nextIs (step { prog [0x51, 0x20] with v := (regs [(1, 7), (2, 7)]).v }) (fun t => t.pc == 0x204) = true := by
  decide

theorem test_sneReg_of_one_register : nextIs (step (prog [0x91, 0x10])) (fun t => t.pc == 0x202) = true := by decide

theorem test_ldImm : nextIs (exec (.ldImm 0xA 0x9C) State.reset) (fun t => t.v[0xA] == 0x9C) = true := by decide

theorem test_addImm_wraps_without_flag :
    nextIs (exec (.addImm 1 0xFF) (regs [(1, 0x05), (15, 0x77)])) (fun t => t.v[1] == 0x04 && t.v[15] == 0x77) = true := by decide

theorem test_ldReg : nextIs (exec (.ldReg 1 2) (regs [(2, 0x11)])) (fun t => t.v[1] == 0x11 && t.v[2] == 0x11) = true := by decide

theorem test_or_keeps_the_flag :
    nextIs (exec (.or 1 2) (regs [(1, 0xF0), (2, 0x0F), (15, 0x55)])) (fun t => t.v[1] == 0xFF && t.v[15] == 0x55) = true := by
  decide

theorem test_and : nextIs (exec (.and 1 2) (regs [(1, 0xF3), (2, 0x3F)])) (fun t => t.v[1] == 0x33) = true := by decide

theorem test_xor : nextIs (exec (.xor 1 2) (regs [(1, 0xF3), (2, 0x3F)])) (fun t => t.v[1] == 0xCC) = true := by decide

theorem test_addReg_carries :
    nextIs (exec (.addReg 0 1) (regs [(0, 0xFF), (1, 0x01)])) (fun t => t.v[0] == 0 && t.v[15] == 1) = true ∧
    nextIs (exec (.addReg 0 1) (regs [(0, 0xFF), (1, 0x00), (15, 9)])) (fun t => t.v[0] == 0xFF && t.v[15] == 0) = true := by
  decide

theorem test_addReg_into_the_flag :
    nextIs (exec (.addReg 15 1) (regs [(15, 0xFF), (1, 0x01)])) (fun t => t.v[15] == 1) = true ∧
    nextIs (exec (.addReg 1 15) (regs [(1, 0x05), (15, 0x03)])) (fun t => t.v[1] == 8 && t.v[15] == 0) = true := by decide

theorem test_sub :
    nextIs (exec (.sub 1 2) (regs [(1, 5), (2, 3)])) (fun t => t.v[1] == 2 && t.v[15] == 1) = true ∧
    nextIs (exec (.sub 1 2) (regs [(1, 3), (2, 5), (15, 1)])) (fun t => t.v[1] == 0xFE && t.v[15] == 0) = true := by decide

theorem test_sub_of_equals_and_into_the_flag :
    nextIs (exec (.sub 1 1) (regs [(1, 7)])) (fun t => t.v[1] == 0 && t.v[15] == 1) = true ∧
    nextIs (exec (.sub 15 1) (regs [(15, 3), (1, 5)])) (fun t => t.v[15] == 0) = true := by decide

theorem test_subn :
    nextIs (exec (.subn 1 2) (regs [(1, 3), (2, 5)])) (fun t => t.v[1] == 2 && t.v[15] == 1) = true ∧
    nextIs (exec (.subn 1 2) (regs [(1, 5), (2, 3)])) (fun t => t.v[1] == 0xFE && t.v[15] == 0) = true := by decide

theorem test_shr :
    nextIs (exec (.shr 1 2) (regs [(2, 0x05)])) (fun t => t.v[1] == 2 && t.v[15] == 1 && t.v[2] == 5) = true ∧
    nextIs (exec (.shr 1 15) (regs [(15, 0x03)])) (fun t => t.v[1] == 1 && t.v[15] == 1) = true := by decide

theorem test_shr_under_the_quirk :
    nextIs (exec (.shr 1 2) { regs [(1, 0x04), (2, 0x05)] with
      settings := { Config.Settings.documented with shiftVxIgnoreVy := true } })
      (fun t => t.v[1] == 2 && t.v[15] == 0 && t.v[2] == 5) = true := by decide

theorem test_shl :
    nextIs (exec (.shl 1 2) (regs [(2, 0x81)])) (fun t => t.v[1] == 2 && t.v[15] == 1) = true ∧
    nextIs (exec (.shl 15 2) (regs [(2, 0x03)])) (fun t => t.v[15] == 0) = true := by decide

theorem test_rnd_masks_every_draw (draw : Byte) (h : Config.randomByte 0 = draw) :
    exec (.rnd 3 0x0F) State.reset = .next ((State.reset.setReg 3 (draw &&& 0x0F)).withFreeCount 1) := by
  subst h; rfl

theorem test_sys :
    nextIs (step (prog [0x01, 0x23])) (fun t => t.pc == 0x202 && t.fault == none) = true ∧
    nextIs (step { prog [0x01, 0x23] with sysFatal := true })
      (fun t => t.pc == 0x202 && t.fault == some (.sysUnsupported 0x123)) = true := by decide

theorem test_jp : nextIs (step (prog [0x12, 0x34])) (fun t => t.pc == 0x234) = true := by decide

theorem test_jpv : nextIs (step { prog [0xBF, 0xFF] with v := (regs [(0, 0xFF)]).v }) (fun t => t.pc == 0x10FE) = true := by
  decide

theorem test_call :
    nextIs (step { ready with pc := 0x204, mem := [(0x204, 0x23)] })
      (fun t => t.stack[0] == 0x206 && t.sp == 1 && t.pc == 0x300) = true := by decide

theorem test_call_overflows :
    nextIs (step { prog [0x23, 0x00] with sp := 16 })
      (fun t => t.fault == some (.stackOverflow 0x200) && t.sp == 16 && t.pc == 0x202) = true := by decide

theorem test_ret :
    nextIs (step { ready with pc := 0x312, mem := [(0x313, 0xEE)], sp := 1, stack := State.reset.stack.set 0 0x206 })
      (fun t => t.sp == 0 && t.pc == 0x206 && t.stack[0] == 0x206) = true := by decide

theorem test_ret_underflows :
    nextIs (step { ready with pc := 0x300, mem := [(0x301, 0xEE)] })
      (fun t => t.fault == some (.stackUnderflow 0x300) && t.pc == 0x302) = true := by decide

theorem test_lda : nextIs (exec (.lda 0x300) State.reset) (fun t => t.i == 0x300) = true := by decide

theorem test_addi_under_the_quirk :
    nextIs (exec (.addi 1) { regs [(1, 1)] with
      i := 0xFFFF, settings := { Config.Settings.documented with setVfWhenOverflow := true } })
      (fun t => t.i == 0 && t.v[15] == 1) = true ∧
    nextIs (exec (.addi 1) { regs [(1, 1), (15, 0x77)] with
      i := 0x0FFF, settings := { Config.Settings.documented with setVfWhenOverflow := true } })
      (fun t => t.i == 0x1000 && t.v[15] == 0) = true := by decide

theorem test_addi_without_the_quirk :
    nextIs (exec (.addi 1) { regs [(1, 1), (15, 0x77)] with i := 0xFFFF }) (fun t => t.i == 0 && t.v[15] == 0x77) = true := by
  decide

theorem test_ldspr :
    nextIs (exec (.ldspr 0) (regs [(0, 0x0F)])) (fun t => t.i == 0x004B) = true ∧
    nextIs (exec (.ldspr 5) (regs [(5, 0xFF)])) (fun t => t.i == 0x04FB) = true := by decide

theorem test_ldb :
    nextIs (exec (.ldb 0xA) { regs [(0xA, 156)] with i := 0x300 })
      (fun t => t.mem == [(0x300, 1), (0x301, 5), (0x302, 6)] && t.i == 0x300) = true := by decide

theorem test_ldi_increments :
    nextIs (exec (.ldi 1) { regs [(0, 0xAA), (1, 0xBB)] with i := 0x300 })
      (fun t => t.mem == [(0x300, 0xAA), (0x301, 0xBB)] && t.i == 0x302) = true := by decide

theorem test_ldi_at_the_last_byte :
    nextIs (exec (.ldi 0) { regs [(0, 0x12)] with i := 0xFFF })
      (fun t => t.mem == [(0xFFF, 0x12)] && t.i == 0x1000 && t.fault == none) = true := by decide

theorem test_ldj :
    nextIs (exec (.ldj 2) { State.reset with i := 0x300, mem := [(0x300, 1), (0x301, 5), (0x302, 6)] })
      (fun t => t.v[0] == 1 && t.v[1] == 5 && t.v[2] == 6 && t.v[3] == 0 && t.i == 0x303) = true := by decide

/-- The state of `test_ldj_at_the_end`. -/
def atTheEnd : State := { regs [(1, 0x99)] with i := 0xFFF, mem := [(0xFFF, 0x42)] }

theorem test_ldj_at_the_end : ∃ t, exec (.ldj 1) atTheEnd = .next t ∧ (t.v[(0 : RegIdx)] = 0x42 ∨ t.v[(0 : RegIdx)] = 0) ∧
    t.v[(1 : RegIdx)] = 0x99 ∧ t.i = 0xFFF ∧ t.fault = some (.memoryOutOfBounds 0x1000) := by
  refine ⟨_, by rw [exec, execLdj_faults (by decide)], ?_, ?_, by decide, by decide⟩
  · show (loadedRegs _ _ _ _)[(0 : RegIdx)] = _ ∨ (loadedRegs _ _ _ _)[(0 : RegIdx)] = _
    rw [getElem_loadedRegs]
    split
    · exact .inl (by decide)
    · exact .inr (by decide)
  · show (loadedRegs _ _ _ _)[(1 : RegIdx)] = _
    rw [getElem_loadedRegs, if_neg (by rintro ⟨_, h, _⟩; revert h; decide)]
    decide

/-- The display after one sprite row of 0xFF at (60, 0), which wraps around the right edge. -/
def wrapped : State := after (exec (.drw 0 1 1) { regs [(0, 60)] with i := 0x300, mem := [(0x300, 0xFF)], dirty := false })

theorem test_drw_wraps_columns :
    lit wrapped (List.finRange 64) [0, 1] = [(0, 0), (1, 0), (2, 0), (3, 0), (60, 0), (61, 0), (62, 0), (63, 0)] ∧
    wrapped.v[15] = 0 ∧ wrapped.dirty = true := by decide

theorem test_drw_collides :
    nextIs (exec (.drw 0 1 1) wrapped) (fun t => t.v[15] == 1 && lit t (List.finRange 64) [0] == []) = true := by decide

theorem test_cls : nextIs (exec .cls wrapped) (fun t => t.dirty && lit t [0, 60] [0] == []) = true := by decide

theorem test_skp :
    nextIs (step { prog [0xE4, 0x9E] with v := (regs [(4, 7)]).v, key := State.reset.key.set 7 true })
      (fun t => t.pc == 0x204) = true ∧
    nextIs (step { prog [0xE4, 0x9E] with v := (regs [(4, 0x10)]).v })
      (fun t => t.pc == 0x202 && t.fault == some (.keyIndexOutOfRange 0x10)) = true := by decide

theorem test_sknp : nextIs (step { prog [0xE4, 0xA1] with v := (regs [(4, 7)]).v }) (fun t => t.pc == 0x204) = true := by decide

theorem test_ldk_stalls : nextIs (step (prog [0xF3, 0x0A])) (fun t => t.pc == 0x200 && t.wait == .armed) = true := by decide

theorem test_ldk_completes :
    nextIs (step { prog [0xFF, 0x0A] with wait := .captured 9 }) (fun t => t.pc == 0x202 && t.wait == .none && t.v[15] == 9) =
      true := by decide

theorem test_ldt : nextIs (exec (.ldt 3) { State.reset with dt := 0x3C }) (fun t => t.v[3] == 0x3C) = true := by decide

theorem test_ldf : nextIs (exec (.ldf 3) (regs [(3, 0x3C)])) (fun t => t.dt == 0x3C && t.st == 0) = true := by decide

theorem test_lds : nextIs (exec (.lds 3) (regs [(3, 0x05)])) (fun t => t.st == 0x05 && t.dt == 0) = true := by decide

/-! ## The outer loop's other steps (vectors V-KB, V-TM, V-CLK, V-DR-16, V-RS) -/

theorem test_key_events :
    nextIs (step { State.reset with wait := .armed, schedule := [.keyDown 3] }) (fun t => t.key[3] && t.wait == .captured 3) =
      true ∧
    nextIs (step { State.reset with wait := .captured 3, schedule := [.keyDown 5] }) (fun t => t.wait == .captured 3) = true ∧
    nextIs (step { State.reset with wait := .captured 3, schedule := [.keyUp 3] }) (fun t => t.wait == .armed) = true := by decide

theorem test_ticks :
    nextIs (step { State.reset with dt := 1, schedule := [.fire .delay] }) (fun t => t.dt == 0) = true ∧
    nextIs (step { State.reset with st := 2, schedule := [.fire .sound] }) (fun t => t.st == 1 && t.tone) = true ∧
    nextIs (step { State.reset with st := 1, tone := true, schedule := [.fire .sound] }) (fun t => t.st == 0 && !t.tone) =
      true := by decide

theorem test_clock_catches_up :
    Clock.tick { period := 1000, last := 1000 } 3600 = (true, { period := 1000, last := 2000 }) ∧
    Clock.tick { period := 1000, last := 3000 } 3600 = (false, { period := 1000, last := 3000 }) ∧
    Clock.pollAll { period := 1000, last := 0 } [600, 1002, 1200, 3600, 3600, 3600] = (3, { period := 1000, last := 3000 }) := by
  decide

theorem test_flush : nextIs (step { State.reset with schedule := [.flush] }) (fun t => !t.dirty && t.schedule == []) = true := by
  decide

theorem test_listed_steps_come_in_order :
    nextIs (step { ready with dt := 2, schedule := [.fire .delay, .fire .cpu] })
      (fun t => t.dt == 1 && t.schedule == [.fire .cpu] && t.eventCount == 0) = true := by decide

/-- With nothing listed, whatever step the outer loop chooses is delivered and counted. -/
theorem test_a_free_tick_is_delivered (h : Config.outerLoopEvent 0 = .fire .delay) :
    nextIs (step { State.reset with dt := 2 }) (fun t => t.dt == 1 && t.eventCount == 1) = true := by
  have hd : State.nextEvent { State.reset with dt := 2 } = .fire .delay := h
  rw [step_of_event rfl hd (by simp)]
  decide

theorem test_load_of_an_odd_length :
    (prog [0x60]).mem = [(0x200, 0x60)] ∧ State.reset.mem.readBlock 0 5 = [0xF0, 0x90, 0x90, 0x90, 0xF0] := by decide

/-! ## Witnesses: for each statement with hypotheses, states and operands that meet them all, at the values where its clauses
meet -/

/-- The reset state with `I` and one register set. -/
def indexed (i : Word) (x : RegIdx) (b : Byte) : State := { regs [(x, b)] with i := i }

/-- A running state in which the outer loop delivers `e`. -/
def delivering (e : HostEvent) : State := { State.reset with schedule := [e] }

theorem running_delivering (e : HostEvent) : (delivering e).Running ∧ (delivering e).Delivers e := ⟨rfl, rfl⟩

theorem witness_EncodedInstructionsDecodeBack : Instr.wellFormed (.sys 0x0E1) = true ∧ Instr.wellFormed (.drw 15 15 15) = true := by
  decide

theorem witness_DecodedWordsEncodeBack : decode 0x8AB4 = .ok (.addReg 0xA 0xB) ∧ decode 0x00EF = .ok (.sys 0x0EF) := by decide

theorem witness_DecoderRejectsExactlyTheIllegalWords :
    IllegalWord 0x5AB1 ∧ ¬ IllegalWord 0x5AB0 ∧ IllegalWord 0x9ABF ∧ ¬ IllegalWord 0x9AB0 ∧ IllegalWord 0x8AB8 ∧
    IllegalWord 0x8ABF ∧ ¬ IllegalWord 0x8AB7 ∧ ¬ IllegalWord 0x8ABE ∧ IllegalWord 0xE19D ∧ ¬ IllegalWord 0xE19E ∧
    IllegalWord 0xF166 ∧ ¬ IllegalWord 0xF165 := by
  unfold IllegalWord
  refine ⟨by decide, by decide, by decide, by decide, by decide, by decide, by decide, by decide, by decide, by decide, ?_⟩
  decide

theorem witness_StepRunsTheDecodedInstruction :
    let s : State := { ready with pc := 0xFFE, mem := [(0xFFE, 0x60), (0xFFF, 0x2A)] }
    s.Running ∧ s.Delivers (.fire .cpu) ∧ s.pc.toNat + 1 < 4096 ∧
    decode (wordOfBytes (s.mem.read s.pc.toNat) (s.mem.read (s.pc.toNat + 1))) = .ok (.ldImm 0 0x2A) :=
  ⟨rfl, rfl, by decide, by decide⟩

theorem witness_IllegalWordIsFatalBeforeTheAdvance :
    (prog [0xFF, 0xFF]).Running ∧ (prog [0xFF, 0xFF]).Delivers (.fire .cpu) ∧ (prog [0xFF, 0xFF]).pc.toNat + 1 < 4096 ∧
    (0xFFFF : Word) = wordOfBytes ((prog [0xFF, 0xFF]).mem.read 0x200) ((prog [0xFF, 0xFF]).mem.read 0x201) ∧
    ∀ i, decode 0xFFFF ≠ .ok i := by
  refine ⟨rfl, rfl, by decide, by decide, fun i => ?_⟩
  have h : decode 0xFFFF = .error (.unknownOpcode 0xFFFF) := by decide
  rw [h]
  exact fun e => by cases e

theorem witness_FetchOutsideMemoryIsFatal : 4096 ≤ (0x1000 : Word).toNat ∧ (0xFFF : Word).toNat = 4095 := by decide

theorem witness_LatchedFaultStopsEveryStep :
    { State.reset with fault := some .loadUnreadable }.fault = some .loadUnreadable ∧
    step ready = .next (after (step ready)) := ⟨rfl, rfl⟩

theorem witness_SysDoesNothingUnlessFatal : State.reset.sysFatal = false ∧ { State.reset with sysFatal := true }.sysFatal = true :=
  ⟨rfl, rfl⟩

theorem witness_CallPushesOrOverflows :
    { State.reset with sp := 15 }.sp.toNat < 16 ∧ 16 ≤ { State.reset with sp := 16 }.sp.toNat := by decide

theorem witness_ReturnPopsOrUnderflows :
    (0 < { State.reset with sp := 1 }.sp.toNat ∧ { State.reset with sp := 1 }.sp.toNat - 1 < 16) ∧
    { State.reset with sp := 16 }.sp.toNat - 1 < 16 ∧ State.reset.sp.toNat = 0 ∧ 16 < { State.reset with sp := 17 }.sp.toNat := by
  decide

theorem witness_AddIndexWrapsAndFlagsUnderTheQuirk :
    State.reset.settings.setVfWhenOverflow = false ∧
    { State.reset with settings := { Config.Settings.documented with setVfWhenOverflow := true } }.settings.setVfWhenOverflow =
      true := ⟨rfl, rfl⟩

theorem witness_StoreDecimalDigits : (indexed 0xFFD 1 255).i.toNat + 2 < 4096 := by decide

theorem witness_StoreRegisterBlock_and_LoadRegisterBlock :
    (indexed 0xFF0 0 1).i.toNat + (15 : RegIdx).val < 4096 ∧ (indexed 0xFFF 0 1).i.toNat + (0 : RegIdx).val < 4096 := by decide

theorem witness_FaultingStores_and_FaultingLoad :
    4096 ≤ (indexed 0xFFE 1 255).i.toNat + 2 ∧ 4096 ≤ (indexed 0xFFF 1 255).i.toNat + (1 : RegIdx).val ∧
    4096 ≤ (indexed 0xFFFF 1 255).i.toNat + (0 : RegIdx).val := by decide

/-- The state after an LDI of `V[0]` and `V[1]`, and that state with `I` put back. -/
def stored : State := after (exec (.ldi 1) (indexed 0x300 1 0x99))

theorem witness_LoadBlockReadsBackStoredBlock :
    (indexed 0x300 1 0x99).i.toNat + (1 : RegIdx).val < 4096 ∧ exec (.ldi 1) (indexed 0x300 1 0x99) = .next stored ∧
    { stored with i := 0x300 }.i = (indexed 0x300 1 0x99).i ∧ { stored with i := 0x300 }.mem = stored.mem ∧
    exec (.ldj 1) { stored with i := 0x300 } = .next (after (exec (.ldj 1) { stored with i := 0x300 })) := by
  refine ⟨by decide, answers (by decide), rfl, rfl, answers ?_⟩
  rw [exec, execLdj_loads (by decide)]
  rfl

theorem witness_DrawXorsTheSprite :
    ((0 : Fin 16).val = 0 ∨ (indexed 0xFFFF 0 0).i.toNat + (0 : Fin 16).val ≤ 4096) ∧
    ((1 : Fin 16).val = 0 ∨ (indexed 0xFFF 0 0).i.toNat + (1 : Fin 16).val ≤ 4096) ∧
    ∃ cx cy, SpriteLights (indexed 0 0 60) 0 1 5 cx cy :=
  ⟨by decide, by decide, 60, 0, 0, 0, by decide, by decide, by decide, by decide, by decide, by decide⟩

theorem witness_DrawOutsideMemoryChangesNothing :
    0 < (2 : Fin 16).val ∧ 4096 < (indexed 0xFFF 0 0).i.toNat + (2 : Fin 16).val := by decide

/-- The state `wrapped` is drawn from. -/
def beforeWrapped : State := { regs [(0, 60)] with i := 0x300, mem := [(0x300, 0xFF)], dirty := false }

theorem witness_DrawingTwiceRestoresThePixels :
    (0 : RegIdx) ≠ 15 ∧ (1 : RegIdx) ≠ 15 ∧ ((1 : Fin 16).val = 0 ∨ beforeWrapped.i.toNat + (1 : Fin 16).val ≤ 4096) ∧
    exec (.drw 0 1 1) beforeWrapped = .next wrapped ∧ exec (.drw 0 1 1) wrapped = .next (after (exec (.drw 0 1 1) wrapped)) ∧
    wrapped.pix ≠ beforeWrapped.pix :=
  ⟨by decide, by decide, by decide, answers (by decide), answers (by decide), by decide⟩

/-- The display of `wrapped`, with a CLS at `pc` and the CPU clock firing next. -/
def clearing : State := { wrapped with mem := [(0x201, 0xE0)], schedule := [.fire .cpu] }

theorem witness_OnlyClearAndDrawChangePixels :
    exec .cls wrapped = .next (after (exec .cls wrapped)) ∧ (after (exec .cls wrapped)).pix ≠ wrapped.pix ∧
    step clearing = .next (after (step clearing)) ∧
    (after (step clearing)).pix ≠ clearing.pix :=
  ⟨answers (by decide), by decide, answers (by decide), by decide⟩

theorem witness_OnlyTheFlushClearsDirty :
    (delivering .flush).Running ∧ (delivering .flush).Delivers .flush ∧
    step (delivering .flush) = .next (after (step (delivering .flush))) ∧ (delivering .flush).dirty = true ∧
    (after (step (delivering .flush))).dirty = false := ⟨rfl, rfl, answers (by decide), rfl, by decide⟩

theorem witness_KeySkipsReadTheNamedKey :
    (regs [(4, 15)]).v[(4 : RegIdx)].toNat < 16 ∧ 16 ≤ (regs [(4, 16)]).v[(4 : RegIdx)].toNat := by decide

theorem witness_KeyWaitCompletesOrStalls :
    { State.reset with wait := .captured 15 }.wait = .captured 15 ∧ State.reset.wait = .none ∧
    { State.reset with wait := .armed }.wait = .armed := ⟨rfl, rfl, rfl⟩

theorem witness_events_are_delivered :
    ((delivering (.keyDown 15)).Running ∧ (delivering (.keyDown 15)).Delivers (.keyDown 15)) ∧
    ((delivering (.keyUp 0)).Running ∧ (delivering (.keyUp 0)).Delivers (.keyUp 0)) ∧
    ((delivering (.fire .delay)).Running ∧ (delivering (.fire .delay)).Delivers (.fire .delay)) ∧
    ((delivering (.fire .sound)).Running ∧ (delivering (.fire .sound)).Delivers (.fire .sound)) :=
  ⟨running_delivering _, running_delivering _, running_delivering _, running_delivering _⟩

theorem witness_ClockTickAdvancesByOnePeriod :
    Clock.period ⟨1000, 1000⟩ ≤ 2000 - Clock.last ⟨1000, 1000⟩ ∧ ¬ Clock.period ⟨1000, 1000⟩ ≤ 1999 - Clock.last ⟨1000, 1000⟩ := by
  decide

theorem witness_ClockFiresAtMostOncePerPeriod : 0 < Clock.period ⟨1000, 0⟩ ∧ ∀ now ∈ [600, 1002, 3600], now ≤ 3600 := by decide

theorem witness_OuterLoopDeliversEveryInterleaving :
    (delivering .flush).schedule = .flush :: [] ∧ State.reset.schedule = [] ∧
    ((delivering (.poll .delay 1000)).Delivers (.poll .delay 1000) ∧
      ((delivering (.poll .delay 1000)).clock .delay).due 1000 = true) ∧
    ((delivering (.poll .delay 999)).Delivers (.poll .delay 999) ∧
      ((delivering (.poll .delay 999)).clock .delay).due 999 = false) ∧
    (delivering .noEvent).Delivers .noEvent ∧ (delivering .quit).Delivers .quit ∧ (delivering .quit).Running :=
  ⟨rfl, rfl, ⟨rfl, by decide⟩, ⟨rfl, by decide⟩, rfl, rfl, rfl⟩

theorem witness_LoadPlacesTheProgramOrIsFatal :
    0x200 + (List.replicate 3584 (0 : Byte)).length ≤ 4096 ∧ 4096 < 0x200 + (List.replicate 3585 (0 : Byte)).length := by
  rw [List.length_replicate, List.length_replicate]
  decide

theorem witness_BootStateIsTheResetTable :
    0x200 + ([] : List Byte).length ≤ 4096 ∧ 0x200 + (List.replicate 3584 (0 : Byte)).length ≤ 4096 := by
  rw [List.length_replicate]
  decide

theorem witness_FetchSeesStoredBytesBigEndian :
    { State.reset with pc := 0xFFE }.pc.toNat + 1 < 4096 ∧ { State.reset with pc := 0x201 }.pc.toNat + 1 < 4096 := by decide

theorem witness_invariants_meet_a_step :
    ready.mem.wf ∧ ready.Bounded ∧ step ready = .next (after (step ready)) :=
  ⟨by decide, ⟨by decide, by decide, by decide, by decide, by decide, by decide⟩, answers (by decide)⟩

theorem witness_SuspendedCpuRefetchesItsLdk :
    { prog [0xF3, 0x0A] with wait := .armed }.WaitsAtLdk ∧ { prog [0xF3, 0x0A] with wait := .armed }.wait ≠ .none ∧
    step { prog [0xF3, 0x0A] with wait := .armed } = .next (after (step { prog [0xF3, 0x0A] with wait := .armed })) :=
  ⟨fun _ => ⟨0xF30A, 3, rfl, by decide⟩, by decide, answers (by decide)⟩

theorem witness_OnlyCallWritesTheStack :
    exec (.call 0x300) State.reset = .next (after (exec (.call 0x300) State.reset)) ∧
    (after (exec (.call 0x300) State.reset)).stack ≠ State.reset.stack ∧
    step (prog [0x23, 0x00]) = .next (after (step (prog [0x23, 0x00]))) ∧
    (after (step (prog [0x23, 0x00]))).sp ≠ (prog [0x23, 0x00]).sp ∧
    exec .ret { State.reset with sp := 1 } = .next (after (exec .ret { State.reset with sp := 1 })) ∧
    (after (exec .ret { State.reset with sp := 1 })).sp ≠ 1 :=
  ⟨answers (by decide), by decide, answers (by decide), by decide, answers (by decide), by decide⟩

theorem witness_OnlyKeyEventsWriteTheKeyTable :
    step (delivering (.keyDown 7)) = .next (after (step (delivering (.keyDown 7)))) ∧
    (after (step (delivering (.keyDown 7)))).key ≠ (delivering (.keyDown 7)).key := ⟨answers (by decide), by decide⟩

theorem witness_OnlyStoresWriteMemory :
    exec (.ldb 1) (indexed 0x300 1 156) = .next (after (exec (.ldb 1) (indexed 0x300 1 156))) ∧
    (after (exec (.ldb 1) (indexed 0x300 1 156))).mem.read 0x301 ≠ (indexed 0x300 1 156).mem.read 0x301 ∧
    step { prog [0xF1, 0x55] with i := 0x200 } = .next (after (step { prog [0xF1, 0x55] with i := 0x200 })) ∧
    (after (step { prog [0xF1, 0x55] with i := 0x200 })).mem ≠ (prog [0xF1, 0x55]).mem :=
  ⟨answers (by decide), by decide, answers (by decide), by decide⟩

theorem witness_CyclesDoNotAdvanceTheTimers :
    cycle { prog [0xF3, 0x15] with dt := 1 } = .next (after (cycle { prog [0xF3, 0x15] with dt := 1 })) ∧
    (after (cycle { prog [0xF3, 0x15] with dt := 1 })).dt ≠ 1 ∧
    cycle { prog [0xF3, 0x18] with st := 1 } = .next (after (cycle { prog [0xF3, 0x18] with st := 1 })) ∧
    (after (cycle { prog [0xF3, 0x18] with st := 1 })).st ≠ 1 :=
  ⟨answers (by decide), by decide, answers (by decide), by decide⟩

theorem witness_FlagSideEffectsAreTheListedOnes :
    exec (.addReg 0 1) (regs [(0, 0xFF), (1, 1)]) = .next (after (exec (.addReg 0 1) (regs [(0, 0xFF), (1, 1)]))) ∧
    (after (exec (.addReg 0 1) (regs [(0, 0xFF), (1, 1)]))).v[(15 : RegIdx)] ≠ (regs [(0, 0xFF), (1, 1)]).v[(15 : RegIdx)] :=
  ⟨answers (by decide), by decide⟩

end Sys2Proof.Tests
end

section
/-! The parameters of the machine and its clocks along a step (spec 00_scope.md R6, 10_state.md R38, R39, R42). -/

namespace Sys2Proof.Machine

open Sys2Proof.Config (ClockId)

/-- Replacing a clock replaces that clock and no other. -/
theorem State.clock_withClock (s : State) (c d : ClockId) (k : Clock) :
    (s.withClock d k).clock c = if c = d then k else s.clock c := by
  cases d <;> cases c <;> rfl

/-- What no instruction writes is kept by the whole cycle, its fetch and decode faults included (R90, R97). -/
theorem cycle_sameOutside {s t : State} (h : cycle s = .next t) : s.SameOutside t := by
  rcases cycle_cases h with ⟨f, rfl⟩ | ⟨w, i, _, _, hexec⟩
  · simp [State.SameOutside, State.raise]
  · simpa [State.SameOutside, State.advancePc] using exec_sameOutside hexec

/-- The parameters of `t` are those of `s`, and each clock of `t` is that of `s`, either untouched or after one fire. -/
structure State.KeepsParameters (s t : State) : Prop where
  settings : t.settings = s.settings
  sysFatal : t.sysFatal = s.sysFatal
  clock : ∀ c, t.clock c = s.clock c ∨ t.clock c = (s.clock c).advance

namespace State.KeepsParameters

/-- The next event taken and one clock fired. -/
theorem fire (s : State) (d : ClockId) : s.KeepsParameters (s.takeEvent.withClock d (s.clock d).advance) where
  settings := by cases d <;> simp [State.withClock]
  sysFatal := by cases d <;> simp [State.withClock]
  clock c := by
    rw [State.clock_withClock, State.clock_takeEvent]
    split
    · next hc => exact .inr (by rw [hc])
    · exact .inl rfl

theorem takeEvent (s : State) : s.KeepsParameters s.takeEvent :=
  ⟨s.takeEvent_settings, s.takeEvent_sysFatal, fun c => .inl (s.clock_takeEvent c)⟩

/-- What changes neither a parameter nor a clock may follow. -/
theorem trans_eq {s u t : State} (h : s.KeepsParameters u) (hset : t.settings = u.settings)
    (hsys : t.sysFatal = u.sysFatal) (hclock : t.clock = u.clock) : s.KeepsParameters t :=
  ⟨hset.trans h.settings, hsys.trans h.sysFatal, hclock ▸ h.clock⟩

theorem trans_sameOutside {s u t : State} (h : s.KeepsParameters u) (hsame : u.SameOutside t) :
    s.KeepsParameters t := by
  obtain ⟨hset, hsys, hcpu, hdelay, hsound, -⟩ := hsame
  refine h.trans_eq hset hsys (funext fun c => ?_)
  cases c
  · exact hcpu
  · exact hdelay
  · exact hsound

end State.KeepsParameters

/-- Every step keeps the parameters, and fires each clock once or not at all (R38, R39, R42). -/
theorem step_keepsParameters {s t : State} (h : step s = .next t) : s.KeepsParameters t := by
  obtain ⟨-, hcycle | rfl | rfl | ⟨k, -, rfl⟩ | ⟨k, -, rfl⟩ | ⟨-, rfl⟩ | rfl | rfl⟩ := step_cases h
  · exact (State.KeepsParameters.fire s .cpu).trans_sameOutside (cycle_sameOutside hcycle)
  · exact (State.KeepsParameters.fire s .delay).trans_eq rfl rfl rfl
  · exact (State.KeepsParameters.fire s .sound).trans_eq rfl rfl rfl
  · rw [State.keyDown_eq]; exact (State.KeepsParameters.takeEvent s).trans_eq rfl rfl rfl
  · rw [State.keyUp_eq]; exact (State.KeepsParameters.takeEvent s).trans_eq rfl rfl rfl
  · exact (State.KeepsParameters.takeEvent s).trans_eq rfl rfl rfl
  · exact .takeEvent s
  · exact ⟨rfl, rfl, fun _ => .inl rfl⟩

/-- Settles O54: a step fires each clock once or not at all, and a fire keeps the period (R39). -/
theorem parametersNeverChange : Obligations.ParametersNeverChange := by
  intro s t h
  have kept := step_keepsParameters h
  refine ⟨kept.settings, kept.sysFatal, fun c => ?_⟩
  rcases kept.clock c with hc | hc
  · rw [hc]; exact ⟨rfl, .inl rfl⟩
  · rw [hc]; exact ⟨rfl, .inr rfl⟩

end Sys2Proof.Machine
end

section
/-! What the execute phase can do to the display, the call stack, `pc`, the wait latch and the registers, said once: every
invariant below starts from `exec_effect`. -/

namespace Sys2Proof.Machine

/-- `t` has the pixels, the call stack and the wait latch of `s`, and its `pc` is that of `s`, after a skip, or the target of
JP or JPV. -/
structure State.KeepsControl (s t : State) : Prop where
  pix : t.pix = s.pix
  stack : t.stack = s.stack
  sp : t.sp = s.sp
  wait : t.wait = s.wait
  pc : t.pc = s.pc ∨ t.pc = s.pc + 2 ∨ t.pc.toNat ≤ 0x10FE

namespace State.KeepsControl

theorem raise (s : State) (f : CoreFault) : s.KeepsControl (s.raise f) :=
  ⟨rfl, rfl, rfl, rfl, .inl rfl⟩

theorem skipIf (s : State) (c : Bool) : s.KeepsControl (s.skipIf c) := by
  cases c
  · exact ⟨rfl, rfl, rfl, rfl, .inl rfl⟩
  · exact ⟨rfl, rfl, rfl, rfl, .inr (.inl rfl)⟩

theorem jump {s : State} {a : Word} (h : a.toNat ≤ 0x10FE) : s.KeepsControl (s.withPc a) :=
  ⟨rfl, rfl, rfl, rfl, .inr (.inr h)⟩

end State.KeepsControl

theorem zextAddr_le (nnn : Addr12) : (zextAddr nnn).toNat ≤ 0x10FE := by
  have := nnn.isLt
  rw [zextAddr_toNat]
  omega

/-- JPV reaches at most 0xFF + 0xFFF (R140). -/
theorem State.jpvTarget_le (s : State) (nnn : Addr12) : (s.jpvTarget nnn).toNat ≤ 0x10FE := by
  have hreg := (s.reg 0).isLt
  have hnnn := nnn.isLt
  rw [State.jpvTarget, BitVec.toNat_add, zextAddr_toNat, BitVec.toNat_setWidth]
  omega

/-- LDJ, whole or faulting, loads registers and keeps the control state (R155). -/
theorem execLdj_loadedRegs {x : RegIdx} {s t : State} (h : execLdj x s = .next t) :
    (∃ lands, loadedRegs s lands s.i.toNat x = t.v) ∧ s.KeepsControl t := by
  by_cases hin : s.i.toNat + x.val < 4096
  · rw [execLdj_loads hin] at h
    generalize hv : loadedRegs s (fun _ => true) s.i.toNat x = v' at h
    cases h
    exact ⟨⟨_, hv⟩, rfl, rfl, rfl, rfl, .inl rfl⟩
  · rw [execLdj_faults (Nat.le_of_not_lt hin)] at h
    generalize hv : loadedRegs s s.lands s.i.toNat x = v' at h
    cases h
    exact ⟨⟨_, hv⟩, rfl, rfl, rfl, rfl, .inl rfl⟩

/-- LDK consumes a captured key, or arms the latch and rewinds (R202). -/
theorem execLdk_cases {x : RegIdx} {s t : State} (h : execLdk x s = .next t) :
    (∃ k : KeyIdx, t = { s with wait := .none, v := s.v.set x (BitVec.ofNat 8 k.val) }) ∨
    t = { s with wait := .armed, pc := s.pc - 2 } := by
  by_cases hk : ∃ k, s.wait = .captured k
  · obtain ⟨k, hk⟩ := hk
    rw [execLdk_captured hk] at h
    cases h
    exact .inl ⟨k, rfl⟩
  · rw [execLdk_stalls (not_exists.1 hk)] at h
    cases h
    exact .inr rfl

/-- The instructions that compute a register, other than DRW and LDK. -/
def computesReg : Instr → Bool
  | .ldImm _ _ | .addImm _ _ | .ldReg _ _ | .or _ _ | .and _ _ | .xor _ _ | .addReg _ _ | .sub _ _ | .shr _ _
  | .subn _ _ | .shl _ _ | .rnd _ _ | .ldt _ | .addi _ | .ldj _ => true
  | _ => false

/-- What an instruction that answers a next state did: `quiet` and `computes` keep the control state, the others are the
instructions that change the display, the call stack or the wait latch, each with its whole next state. -/
inductive ExecEffect (s : State) : Instr → State → Prop
  | quiet {i t} (keeps : s.KeepsControl t) (v : t.v = s.v) : ExecEffect s i t
  | computes {i t} (hi : computesReg i = true) (keeps : s.KeepsControl t) : ExecEffect s i t
  | clear : ExecEffect s .cls s.clearDisplay
  | draw (x y n) (b : Blit) :
      ExecEffect s (.drw x y n) (((s.withPix b.pix).withDirty b.dirty).setFlag b.collision)
  | push (nnn) (h : s.sp.toNat < 16) :
      ExecEffect s (.call nnn) { s with stack := s.stack.set s.sp.toNat s.pc h, sp := s.sp + 1, pc := zextAddr nnn }
  | pop (h0 : s.sp ≠ 0) (h : s.sp.toNat - 1 < 16) :
      ExecEffect s .ret { s with sp := s.sp - 1, pc := s.stack[s.sp.toNat - 1] }
  | captures (x) (k : KeyIdx) :
      ExecEffect s (.ldk x) { s with wait := .none, v := s.v.set x (BitVec.ofNat 8 k.val) }
  | stalls (x) : ExecEffect s (.ldk x) { s with wait := .armed, pc := s.pc - 2 }

namespace ExecEffect

theorem raises (s : State) (i : Instr) (f : CoreFault) : ExecEffect s i (s.raise f) := .quiet (.raise s f) rfl

theorem skips (s : State) (i : Instr) (c : Bool) : ExecEffect s i (s.skipIf c) :=
  .quiet (.skipIf s c) (by rw [State.skipIf_eq])

theorem storesFaulting (s : State) (i : Instr) (base : Nat) (bytes : List Byte) (a : Nat) :
    ExecEffect s i (s.storeFaulting base bytes a) := by
  rw [State.storeFaulting_eq]
  exact .quiet ⟨rfl, rfl, rfl, rfl, .inl rfl⟩ rfl

/-- SKP and SKNP skip or raise (R194). -/
theorem skipsOnKey (s : State) (i : Instr) (x : RegIdx) (down : Bool) : ExecEffect s i (s.skipOnKey x down) := by
  rcases s.skipOnKey_cases x down with ⟨c, hc⟩ | ⟨f, hf⟩
  · rw [hc]; exact skips s i c
  · rw [hf]; exact raises s i f

theorem call {nnn : Addr12} {s t : State} (h : execCall nnn s = .next t) : ExecEffect s (.call nnn) t := by
  by_cases hs : s.sp.toNat < 16
  · rw [execCall_push hs] at h; cases h; exact .push nnn hs
  · rw [execCall_overflow (Nat.le_of_not_lt hs)] at h; cases h; exact raises s _ _

theorem ret {s t : State} (h : execRet s = .next t) : ExecEffect s .ret t := by
  unfold execRet at h
  split at h
  · cases h; exact raises s _ _
  · next h0 =>
    split at h
    · next hs => cases h; exact .pop h0 hs
    · cases h

theorem ldk {x : RegIdx} {s t : State} (h : execLdk x s = .next t) : ExecEffect s (.ldk x) t := by
  rcases execLdk_cases h with ⟨k, rfl⟩ | rfl
  · exact .captures x k
  · exact .stalls x

theorem drw {x y : RegIdx} {n : Fin 16} {s t : State} (h : execDrw x y n s = .next t) :
    ExecEffect s (.drw x y n) t := by
  unfold execDrw at h
  split at h
  · cases h; exact raises s _ _
  · cases h; exact .draw x y n _

end ExecEffect

/-- What each instruction did, by its constructor (R94). -/
theorem exec_effect {i : Instr} {s t : State} (h : exec i s = .next t) : ExecEffect s i t := by
  cases i
  case cls => cases h; exact .clear
  case drw => exact .drw h
  case call => exact .call h
  case ret => exact .ret h
  case ldk => exact .ldk h
  case jp nnn => cases h; exact .quiet (.jump (zextAddr_le nnn)) rfl
  case jpv nnn => cases h; exact .quiet (.jump (s.jpvTarget_le nnn)) rfl
  case seImm | sneImm | seReg | sneReg => cases h; exact .skips s _ _
  case skp | sknp => cases h; exact .skipsOnKey s _ _ _
  case lda | ldspr | ldf | lds => cases h; exact .quiet ⟨rfl, rfl, rfl, rfl, .inl rfl⟩ rfl
  case sys =>
    cases h
    split
    · exact .raises s _ _
    · exact .quiet ⟨rfl, rfl, rfl, rfl, .inl rfl⟩ rfl
  case ldb =>
    simp only [exec, execLdb] at h
    split at h <;> cases h
    · exact .quiet ⟨rfl, rfl, rfl, rfl, .inl rfl⟩ rfl
    · exact .storesFaulting s _ _ _ _
  case ldi =>
    simp only [exec, execLdi, State.bumpIndex_eq] at h
    split at h <;> cases h
    · exact .quiet ⟨rfl, rfl, rfl, rfl, .inl rfl⟩ rfl
    · exact .storesFaulting s _ _ _ _
  case ldj => exact .computes rfl (execLdj_loadedRegs h).2
  case addi =>
    cases h
    split <;> exact .computes rfl ⟨rfl, rfl, rfl, rfl, .inl rfl⟩
  all_goals cases h; exact .computes rfl ⟨rfl, rfl, rfl, rfl, .inl rfl⟩

/-! ## The step -/

/-- The state in which a step executes its instruction: the fire taken and counted, and `pc` advanced (R92). -/
def State.executing (s : State) : State := s.fired.advancePc

@[simp] theorem State.executing_pix (s : State) : s.executing.pix = s.pix := s.takeEvent_pix
@[simp] theorem State.executing_stack (s : State) : s.executing.stack = s.stack := s.takeEvent_stack
@[simp] theorem State.executing_sp (s : State) : s.executing.sp = s.sp := s.takeEvent_sp
@[simp] theorem State.executing_wait (s : State) : s.executing.wait = s.wait := s.takeEvent_wait
@[simp] theorem State.executing_mem (s : State) : s.executing.mem = s.mem := s.takeEvent_mem

@[simp] theorem State.executing_pc (s : State) : s.executing.pc = s.pc + 2 := by
  rw [State.executing, State.advancePc_eq, State.fired_eq]

/-- `t` has the pixels, the call stack, `pc` and the memory of `s`, and a wait is pending in both or in neither. -/
structure State.KeepsProgram (s t : State) : Prop where
  pix : t.pix = s.pix
  stack : t.stack = s.stack
  sp : t.sp = s.sp
  pc : t.pc = s.pc
  mem : t.mem = s.mem
  wait : t.wait = .none ↔ s.wait = .none

namespace State.KeepsProgram

theorem raise (s : State) (c : Clock) (f : CoreFault) : s.KeepsProgram ((s.withCpuClock c).raise f) :=
  ⟨rfl, rfl, rfl, rfl, rfl, .rfl⟩

theorem tickDelay (s : State) (c : Clock) : s.KeepsProgram (s.withDelayClock c).tickDelay :=
  ⟨rfl, rfl, rfl, rfl, rfl, .rfl⟩

theorem tickSound (s : State) (c : Clock) : s.KeepsProgram (s.withSoundClock c).tickSound :=
  ⟨rfl, rfl, rfl, rfl, rfl, .rfl⟩

theorem keyDown (s : State) (k : KeyIdx) : s.KeepsProgram (s.keyDown k) := by
  rw [State.keyDown_eq]
  refine ⟨rfl, rfl, rfl, rfl, rfl, ?_⟩
  show (if s.wait = .armed then Wait.captured k else s.wait) = .none ↔ s.wait = .none
  split <;> simp_all

theorem keyUp (s : State) (k : KeyIdx) : s.KeepsProgram (s.keyUp k) := by
  rw [State.keyUp_eq]
  refine ⟨rfl, rfl, rfl, rfl, rfl, ?_⟩
  show (if s.wait = .captured k then Wait.armed else s.wait) = .none ↔ s.wait = .none
  split <;> simp_all

/-- Taking the next event comes before what it does. -/
theorem of_takeEvent {s t : State} (h : s.takeEvent.KeepsProgram t) : s.KeepsProgram t := by
  obtain ⟨hpix, hstack, hsp, hpc, hmem, hwait⟩ := h
  exact ⟨hpix.trans s.takeEvent_pix, hstack.trans s.takeEvent_stack, hsp.trans s.takeEvent_sp,
    hpc.trans s.takeEvent_pc, hmem.trans s.takeEvent_mem, by rw [hwait, s.takeEvent_wait]⟩

end State.KeepsProgram

/-- A step executes the decoded instruction at `pc`, after the advance, or leaves the program's state as it was: ticks, host
events and the faults of fetch and decode (R90, R91, R93, R232). -/
theorem step_executes_or_keepsProgram {s t : State} (h : step s = .next t) :
    (∃ w i, s.fetch = .ok w ∧ decode w = .ok i ∧ exec i s.executing = .next t) ∨ s.KeepsProgram t := by
  obtain ⟨-, hcycle | rfl | rfl | ⟨k, -, rfl⟩ | ⟨k, -, rfl⟩ | ⟨-, rfl⟩ | rfl | rfl⟩ := step_cases h
  · rcases cycle_cases hcycle with ⟨f, rfl⟩ | ⟨w, i, hw, hi, hexec⟩
    · exact .inr (.of_takeEvent (.raise _ _ f))
    · exact .inl ⟨w, i, fetch_fired s ▸ hw, hi, hexec⟩
  · exact .inr (.of_takeEvent (.tickDelay _ _))
  · exact .inr (.of_takeEvent (.tickSound _ _))
  · exact .inr (.of_takeEvent (.keyDown _ k))
  · exact .inr (.of_takeEvent (.keyUp _ k))
  · exact .inr (.of_takeEvent ⟨rfl, rfl, rfl, rfl, rfl, .rfl⟩)
  · exact .inr (.of_takeEvent ⟨rfl, rfl, rfl, rfl, rfl, .rfl⟩)
  · exact .inr ⟨rfl, rfl, rfl, rfl, rfl, .rfl⟩

end Sys2Proof.Machine
end

section
/-! The bounds of `sp`, the return addresses and `pc` (spec 10_state.md R23, R26, R29, R33). -/

namespace Sys2Proof.Machine

open Sys2Proof.Config (ClockId)

theorem exec_sp_le {i : Instr} {s t : State} (h : exec i s = .next t) (hsp : s.sp.toNat ≤ 16) : t.sp.toNat ≤ 16 := by
  cases exec_effect h with
  | quiet keeps | computes _ keeps => rwa [keeps.sp]
  | push nnn hlt => show (s.sp + 1).toNat ≤ 16; bv_omega
  | pop h0 _ => show (s.sp - 1).toNat ≤ 16; bv_omega
  | clear | draw | captures | stalls => exact hsp

/-- CALL pushes `pc`, and nothing else writes the stack (R33). -/
theorem exec_stack_le {i : Instr} {s t : State} (h : exec i s = .next t) (hpc : s.pc.toNat ≤ 0x1000)
    (hstack : ∀ k : Fin 16, s.stack[k].toNat ≤ 0x1000) (k : Fin 16) : t.stack[k].toNat ≤ 0x1000 := by
  cases exec_effect h with
  | quiet keeps | computes _ keeps => rw [keeps.stack]; exact hstack k
  | push nnn hlt =>
    show ((s.stack.set s.sp.toNat s.pc hlt)[k]).toNat ≤ 0x1000
    rw [Fin.getElem_fin, Vector.getElem_set]
    split
    · exact hpc
    · exact hstack k
  | clear | draw | pop | captures | stalls => exact hstack k

/-- After the advance `pc` lies from 2 to 0x1000, so a skip and LDK's rewind do not wrap (R23, R26). -/
theorem exec_pc_le {i : Instr} {s t : State} (h : exec i s = .next t) (hlo : 2 ≤ s.pc.toNat) (hhi : s.pc.toNat ≤ 0x1000)
    (hstack : ∀ k : Fin 16, s.stack[k].toNat ≤ 0x1000) : t.pc.toNat ≤ 0x10FE := by
  cases exec_effect h with
  | quiet keeps | computes _ keeps =>
    rcases keeps.pc with hpc | hpc | hpc
    · rw [hpc]; omega
    · rw [hpc]; bv_omega
    · exact hpc
  | push nnn _ => exact zextAddr_le nnn
  | pop _ hlt => exact (hstack ⟨_, hlt⟩).trans (by decide)
  | stalls => show (s.pc - 2).toNat ≤ 0x10FE; bv_omega
  | clear | draw | captures => show s.pc.toNat ≤ 0x10FE; omega

/-- Settles O51: an instruction is fetched below 0x1000 and so starts with `pc` from 2 to 0x1000, the return address CALL
pushes; no other step moves `pc`, `sp` or the stack. -/
theorem boundedStatesStayBounded : Obligations.BoundedStatesStayBounded := by
  intro s t hs h
  have period : ∀ c : ClockId, (t.clock c).period = (s.clock c).period := by
    obtain ⟨-, -, hclock⟩ := parametersNeverChange s t h
    exact fun c => (hclock c).1
  suffices hc : t.sp.toNat ≤ 16 ∧ (∀ k : Fin 16, t.stack[k].toNat ≤ 0x1000) ∧ t.pc.toNat ≤ 0x10FE by
    obtain ⟨hsp, hstack, hpc⟩ := hc
    exact ⟨hsp, hstack, hpc, (period .cpu).symm ▸ hs.cpu_pos, (period .delay).symm ▸ hs.delay_pos,
      (period .sound).symm ▸ hs.sound_pos⟩
  rcases step_executes_or_keepsProgram h with ⟨w, i, hw, -, hexec⟩ | keeps
  · have hin : s.pc.toNat + 1 < 4096 := (State.fetch_eq_ok.1 hw).1
    have hpc : s.executing.pc.toNat = s.pc.toNat + 2 := by rw [State.executing_pc]; bv_omega
    have hstack : ∀ k : Fin 16, s.executing.stack[k].toNat ≤ 0x1000 := s.executing_stack ▸ hs.stack_le
    exact ⟨exec_sp_le hexec (s.executing_sp ▸ hs.sp_le), exec_stack_le hexec (by omega) hstack,
      exec_pc_le hexec (by omega) (by omega) hstack⟩
  · rw [keeps.sp, keeps.stack, keeps.pc]
    exact ⟨hs.sp_le, hs.stack_le, hs.pc_le⟩

end Sys2Proof.Machine
end

section
/-! The key wait (spec 10_state.md R36, R41, 40_cycle.md R99, 46_keyboard_timers.md R202). -/

namespace Sys2Proof.Machine

/-- Only LDK writes the wait latch (R202). -/
theorem exec_wait {i : Instr} {s t : State} (h : exec i s = .next t) (hi : ∀ x, i ≠ .ldk x) : t.wait = s.wait := by
  cases exec_effect h with
  | quiet keeps | computes _ keeps => exact keeps.wait
  | captures x | stalls x => exact absurd rfl (hi x)
  | clear | draw | push | pop => rfl

/-- An LDK that leaves the latch armed has rewound `pc` to itself (R202). -/
theorem execLdk_wait {x : RegIdx} {s t : State} (h : execLdk x s = .next t) (hw : t.wait ≠ .none) :
    t = { s with wait := .armed, pc := s.pc - 2 } := by
  rcases execLdk_cases h with ⟨k, rfl⟩ | ht
  · exact absurd rfl hw
  · exact ht

/-- After the advance, LDK's rewind leads back to the fetched word (R92, R202). -/
theorem fetch_rewind_executing (s : State) (w : Wait) :
    State.fetch { s.executing with wait := w, pc := s.executing.pc - 2 } = s.fetch := by
  refine State.fetch_congr ?_ s.executing_mem
  show s.executing.pc - 2 = s.pc
  rw [State.executing_pc, BitVec.add_sub_cancel]

theorem step_waitsAtLdk {s t : State} (hs : s.WaitsAtLdk) (h : step s = .next t) : t.WaitsAtLdk := by
  intro ht
  rcases step_executes_or_keepsProgram h with ⟨w, i, hw, hi, hexec⟩ | keeps
  · have hldk : ∃ x, i = .ldk x := by
      by_contra hne
      have hkeep : t.wait = s.wait := (exec_wait hexec (not_exists.1 hne)).trans s.executing_wait
      obtain ⟨w', x, hw', hx⟩ := hs (hkeep ▸ ht)
      cases hw.symm.trans hw'
      cases hi.symm.trans hx
      exact hne ⟨x, rfl⟩
    obtain ⟨x, rfl⟩ := hldk
    rw [execLdk_wait hexec ht]
    exact ⟨w, x, (fetch_rewind_executing s .armed).trans hw, hi⟩
  · obtain ⟨w, x, hw, hx⟩ := hs (mt keeps.wait.2 ht)
    exact ⟨w, x, (State.fetch_congr keeps.pc keeps.mem).trans hw, hx⟩

/-- Settles O52: only LDK arms the latch, and one that stalls is fetched again. -/
theorem suspendedCpuRefetchesItsLdk : Obligations.SuspendedCpuRefetchesItsLdk := by
  refine ⟨fun s t => step_waitsAtLdk, fun s hs hwait => ?_⟩
  obtain ⟨w, x, hw, hx⟩ := hs hwait
  exact ⟨x, cycle_of_decode hw hx⟩

end Sys2Proof.Machine
end

section
/-! Who writes the pixels, the call stack and the key table (spec 10_state.md R29, R33, R35, R37). -/

namespace Sys2Proof.Machine

theorem exec_pix {i : Instr} {s t : State} (h : exec i s = .next t) (hpix : t.pix ≠ s.pix) :
    i = .cls ∨ ∃ x y n, i = .drw x y n := by
  cases exec_effect h with
  | quiet keeps | computes _ keeps => exact absurd keeps.pix hpix
  | clear => exact .inl rfl
  | draw x y n => exact .inr ⟨x, y, n, rfl⟩
  | push | pop | captures | stalls => exact absurd rfl hpix

/-- Settles O34: CLS and DRW are the only effects on the display, and a step that executes no instruction keeps it. -/
theorem onlyClearAndDrawChangePixels : Obligations.OnlyClearAndDrawChangePixels := by
  refine ⟨fun i s t => exec_pix, fun s t h hpix => ?_⟩
  rcases step_executes_or_keepsProgram h with ⟨w, i, hw, hi, hexec⟩ | keeps
  · refine ⟨w, hw, ?_⟩
    rcases exec_pix hexec (s.executing_pix ▸ hpix) with rfl | ⟨x, y, n, rfl⟩
    · exact .inl hi
    · exact .inr ⟨x, y, n, hi⟩
  · exact absurd keeps.pix hpix

/-- An instruction keeps the call stack and `sp`, or pops, or pushes (R29, R33). -/
theorem exec_stack_cases {i : Instr} {s t : State} (h : exec i s = .next t) :
    (t.stack = s.stack ∧ t.sp = s.sp) ∨ (i = .ret ∧ t.stack = s.stack ∧ t.sp + 1 = s.sp) ∨
    ∃ nnn, i = .call nnn ∧ t.sp = s.sp + 1 := by
  cases exec_effect h with
  | quiet keeps | computes _ keeps => exact .inl ⟨keeps.stack, keeps.sp⟩
  | push nnn => exact .inr (.inr ⟨nnn, rfl, rfl⟩)
  | pop => exact .inr (.inl ⟨rfl, rfl, BitVec.sub_add_cancel s.sp 1⟩)
  | clear | draw | captures | stalls => exact .inl ⟨rfl, rfl⟩

/-- Settles O55, from what an instruction can do to the stack. -/
theorem onlyCallWritesTheStack : Obligations.OnlyCallWritesTheStack := by
  refine ⟨fun i s t h => ?_, fun s t h hne => ?_⟩
  · rcases exec_stack_cases h with ⟨hstack, hsp⟩ | ⟨rfl, hstack, hsp⟩ | ⟨nnn, rfl, hsp⟩
    · exact ⟨fun hne => absurd hstack hne, fun hne => absurd hsp hne⟩
    · exact ⟨fun hne => absurd hstack hne, fun _ => .inl ⟨rfl, hsp⟩⟩
    · exact ⟨fun _ => ⟨nnn, rfl⟩, fun _ => .inr ⟨nnn, rfl, hsp⟩⟩
  · rcases step_executes_or_keepsProgram h with ⟨w, i, hw, hi, hexec⟩ | keeps
    · refine ⟨w, hw, ?_⟩
      have hcases := exec_stack_cases hexec
      rw [s.executing_stack, s.executing_sp] at hcases
      rcases hcases with ⟨hstack, hsp⟩ | ⟨rfl, hstack, hsp⟩ | ⟨nnn, rfl, hsp⟩
      · exact hne.elim (absurd hstack) (absurd hsp)
      · exact .inl ⟨hi, hstack, hsp⟩
      · exact .inr ⟨nnn, hi, hsp⟩
    · exact hne.elim (absurd keeps.stack) (absurd keeps.sp)

/-- Settles O56: the key table is outside what the CPU writes, and no tick or flush touches it. -/
theorem onlyKeyEventsWriteTheKeyTable : Obligations.OnlyKeyEventsWriteTheKeyTable := by
  have execKey : ∀ (i : Instr) (s t : State), exec i s = .next t → t.key = s.key := by
    intro i s t h
    obtain ⟨-, -, -, -, -, hkey, -⟩ := exec_sameOutside h
    exact hkey
  refine ⟨execKey, fun s t h hne => ?_⟩
  obtain ⟨-, hcycle | rfl | rfl | ⟨k, hk, -⟩ | ⟨k, hk, -⟩ | ⟨-, rfl⟩ | rfl | rfl⟩ := step_cases h
  · obtain ⟨-, -, -, -, -, hkey, -⟩ := cycle_sameOutside hcycle
    rw [State.fired_eq] at hkey
    exact absurd hkey hne
  · exact absurd s.takeEvent_key hne
  · exact absurd s.takeEvent_key hne
  · exact ⟨k, .inl hk⟩
  · exact ⟨k, .inr hk⟩
  · exact absurd s.takeEvent_key hne
  · exact absurd s.takeEvent_key hne
  · exact absurd rfl hne

end Sys2Proof.Machine
end

section
/-! Who writes VF (spec 10_state.md R21, 70_reset_and_hazards.md R247). -/

namespace Sys2Proof.Machine

/-- A register write changes VF only if VF is its destination. -/
theorem eq_flag_of_setReg {v : Vector Byte 16} {x : RegIdx} {b : Byte}
    (h : (v.set x b)[(15 : RegIdx)] ≠ v[(15 : RegIdx)]) : x = 15 := by
  by_contra hx
  rw [getElem_setReg, if_neg (Ne.symm hx)] at h
  exact h rfl

/-- A load of `V[0]` to `V[x]` changes VF only if `x` is F. -/
theorem eq_flag_of_loadedRegs {s : State} {lands : Nat → Bool} {base : Nat} {x : RegIdx}
    (h : (loadedRegs s lands base x)[(15 : RegIdx)] ≠ s.v[(15 : RegIdx)]) : x = 15 := by
  by_contra hx
  rw [getElem_loadedRegs, if_neg] at h
  · exact h rfl
  · rintro ⟨hle, -⟩
    exact hx (Fin.ext (Nat.le_antisymm (Nat.le_of_lt_succ x.isLt) hle))

/-- Settles O59: what computes a register without a flag changes VF only as its destination. -/
theorem flagSideEffectsAreTheListedOnes : Obligations.FlagSideEffectsAreTheListedOnes := by
  intro i s t h hne
  cases exec_effect h with
  | quiet _ hv => exact absurd (by rw [hv]) hne
  | clear | push | pop | stalls => exact absurd rfl hne
  | draw x y n => exact .inr (.inl ⟨x, y, n, rfl⟩)
  | captures x k => obtain rfl := eq_flag_of_setReg hne; simp
  | computes hi _ =>
    cases i
    case addReg x y | sub x y | shr x y | subn x y | shl x y => exact .inl ⟨x, y, by simp⟩
    case ldImm x _ | addImm x _ | rnd x _ | ldReg x _ | or x _ | and x _ | xor x _ | ldt x =>
      cases h
      obtain rfl := eq_flag_of_setReg hne
      simp
    case ldj x =>
      obtain ⟨⟨lands, hv⟩, -⟩ := execLdj_loadedRegs h
      obtain rfl := eq_flag_of_loadedRegs (hv ▸ hne)
      simp
    case addi x =>
      refine .inr (.inr (.inl ⟨x, rfl, ?_⟩))
      by_contra hq
      rw [exec, execAddi, if_neg hq] at h
      cases h
      exact hne rfl
    all_goals cases hi

end Sys2Proof.Machine
end

section
/-! The fault latch and the state before the first cycle (spec 10_state.md R40, R43). -/

namespace Sys2Proof.Machine

/-- Settles O8: `step` looks at the latch first. -/
theorem latchedFaultStopsEveryStep : Obligations.LatchedFaultStopsEveryStep := by
  refine ⟨fun s f hf => ?_, fun s t h => (step_cases h).1⟩
  rw [step, coreStep, hf]

theorem Memory.read_writeBlock_add {base : Nat} {bs : List Byte} (m : Memory) (hin : base + bs.length ≤ Config.memSize)
    {k : Nat} (hk : k < bs.length) : (Memory.writeBlock base bs m).read (base + k) = bs[k] := by
  rw [Memory.read_writeBlock m hin, dif_pos (by omega)]
  simp only [Nat.add_sub_cancel_left]

theorem Memory.read_writeBlock_outside {base : Nat} {bs : List Byte} (m : Memory)
    (hin : base + bs.length ≤ Config.memSize) {a : Nat} (ha : a < base ∨ base + bs.length ≤ a) :
    (Memory.writeBlock base bs m).read a = m.read a := by
  rw [Memory.read_writeBlock m hin, dif_neg (by omega)]

/-- A program that fits is written from 0x200 up, and nothing else of the constructed state changes (R240, R241). -/
theorem State.boot_eq {p : Config.Params} {bytes : List Byte} (h : 0x200 + bytes.length ≤ 4096) :
    State.boot p (some bytes) = (State.constructed p).withMem (Memory.writeBlock 0x200 bytes []) :=
  if_neg (Nat.not_lt.2 h)

theorem getElem?_glyph : ∀ (d : Fin 16) (k : Fin 5),
    (glyph d)[k.val]? = some (Memory.resetByte (d.val * 5 + k.val)) := by
  decide

theorem Memory.resetByte_of_le {a : Nat} (h : 80 ≤ a) : Memory.resetByte a = 0 := if_neg (Nat.not_lt.2 h)

/-- Settles O47: the constructed state field by field, and memory address by address. -/
theorem bootStateIsTheResetTable : Obligations.BootStateIsTheResetTable := by
  refine ⟨fun p bytes hfit => ?_, rfl⟩
  rw [State.boot_eq hfit]
  have hfont : ∀ (d : Fin 16) (k : Fin 5),
      (glyph d)[k.val]? = some ((Memory.writeBlock 0x200 bytes []).read (d.val * 5 + k.val)) := by
    intro d k
    rw [Memory.read_writeBlock_outside [] hfit (.inl (by omega)), getElem?_glyph, Memory.read_nil]
  have hrest : ∀ a, 80 ≤ a → (a < 0x200 ∨ 0x200 + bytes.length ≤ a) →
      (Memory.writeBlock 0x200 bytes []).read a = 0 := by
    intro a ha hout
    rw [Memory.read_writeBlock_outside [] hfit hout, Memory.read_nil, Memory.resetByte_of_le ha]
  refine ⟨fun r => ?_, rfl, rfl, rfl, fun k => ?_, rfl, rfl, hfont, fun _ => Memory.read_writeBlock_add [] hfit, hrest,
    fun cx cy => ?_, rfl, fun k => ?_, rfl, rfl, rfl, rfl, rfl, rfl, rfl, rfl, rfl⟩
  all_goals simp [State.constructed]

/-- Settles O53: memory is unwritten, every bound is met at zero and at 0x200, and no wait is armed. -/
theorem resetMeetsTheInvariants : Obligations.ResetMeetsTheInvariants := by
  refine ⟨Memory.wf_nil, ?_, fun hwait => absurd rfl hwait⟩
  constructor
  case stack_le => intro k; simp [State.reset, State.constructed]
  all_goals decide

end Sys2Proof.Machine
end

section
/-! Memory along a step: who writes it, and its canonical form (spec 20_memory.md R50, R64, 44_index_memory.md R157). -/

namespace Sys2Proof.Machine

/-- SKP and SKNP, whether they skip or raise, keep memory (R194). -/
@[simp] theorem State.skipOnKey_mem (s : State) (x : RegIdx) (down : Bool) : (s.skipOnKey x down).mem = s.mem := by
  rcases s.skipOnKey_cases x down with ⟨c, hc⟩ | ⟨f, hf⟩
  · rw [hc, State.skipIf_eq]
  · rw [hf, State.raise_eq]

theorem execCall_mem {nnn : Addr12} {s t : State} (h : execCall nnn s = .next t) : t.mem = s.mem := by
  by_cases hs : s.sp.toNat < 16
  · rw [execCall_push hs] at h; cases h; rfl
  · rw [execCall_overflow (Nat.le_of_not_lt hs)] at h; cases h; rfl

theorem execRet_mem {s t : State} (h : execRet s = .next t) : t.mem = s.mem := by
  unfold execRet at h
  split at h
  · cases h; rfl
  · split at h
    · cases h; rfl
    · cases h

theorem execLdk_mem {x : RegIdx} {s t : State} (h : execLdk x s = .next t) : t.mem = s.mem := by
  rcases execLdk_cases h with ⟨k, rfl⟩ | rfl <;> rfl

theorem execDrw_mem {x y : RegIdx} {n : Fin 16} {s t : State} (h : execDrw x y n s = .next t) : t.mem = s.mem := by
  unfold execDrw at h
  split at h <;> cases h <;> rfl

theorem execLdj_mem {x : RegIdx} {s t : State} (h : execLdj x s = .next t) : t.mem = s.mem := by
  by_cases hin : s.i.toNat + x.val < 4096
  · rw [execLdj_loads hin] at h; cases h; rfl
  · rw [execLdj_faults (Nat.le_of_not_lt hin)] at h; cases h; rfl

/-- The memory of `t` is that of `s` after a block store at `I` of at most sixteen bytes, whole or faulting (R62, R157). -/
def State.StoresAtIndex (s t : State) : Prop :=
  ∃ lands bytes, bytes.length ≤ 16 ∧ t.mem = Memory.writeWhere lands s.i.toNat bytes s.mem

/-- LDB stores three bytes at `I` (R153). -/
theorem execLdb_storesAtIndex {x : RegIdx} {s t : State} (h : execLdb x s = .next t) : s.StoresAtIndex t := by
  refine ⟨if s.i.toNat + 2 < 4096 then fun _ => true else s.lands, bcdDigits s.v[x], by rw [length_bcdDigits]; decide, ?_⟩
  split
  · next hin => rw [execLdb_stores hin] at h; cases h; rfl
  · next hout => rw [execLdb_faults (Nat.le_of_not_lt hout)] at h; cases h; rfl

/-- LDI stores `V[0]` to `V[x]` at `I` (R154). -/
theorem execLdi_storesAtIndex {x : RegIdx} {s t : State} (h : execLdi x s = .next t) : s.StoresAtIndex t := by
  refine ⟨if s.i.toNat + x.val < 4096 then fun _ => true else s.lands, s.regBlock x, s.length_regBlock x ▸ x.isLt, ?_⟩
  split
  · next hin => rw [execLdi_stores hin] at h; cases h; rfl
  · next hout => rw [execLdi_faults (Nat.le_of_not_lt hout)] at h; cases h; rfl

/-- An instruction keeps memory, or it is LDB or LDI and stores at `I` (R64). -/
theorem exec_mem_cases {i : Instr} {s t : State} (h : exec i s = .next t) :
    t.mem = s.mem ∨ (∃ x, i = .ldb x ∨ i = .ldi x) ∧ s.StoresAtIndex t := by
  cases i
  case ldb x => exact .inr ⟨⟨x, .inl rfl⟩, execLdb_storesAtIndex h⟩
  case ldi x => exact .inr ⟨⟨x, .inr rfl⟩, execLdi_storesAtIndex h⟩
  case call => exact .inl (execCall_mem h)
  case ret => exact .inl (execRet_mem h)
  case ldk => exact .inl (execLdk_mem h)
  case drw => exact .inl (execDrw_mem h)
  case ldj => exact .inl (execLdj_mem h)
  case skp | sknp => cases h; exact .inl (s.skipOnKey_mem _ _)
  case seImm | sneImm | seReg | sneReg => cases h; rw [State.skipIf_eq]; exact .inl rfl
  case sys | addi => cases h; split <;> exact .inl rfl
  all_goals cases h; exact .inl rfl

/-- A store at `I` writes canonical bytes at addresses in the space only. -/
theorem State.StoresAtIndex.wf {s t : State} (h : s.StoresAtIndex t) (hs : s.mem.wf) : t.mem.wf := by
  obtain ⟨lands, bytes, -, hmem⟩ := h
  rw [hmem]
  exact Memory.wf_writeWhere lands _ bytes hs

/-- A store at `I` changes no byte but those from `I` to `I + 15` that lie in memory (R157). -/
theorem State.StoresAtIndex.range_of_read_ne {s t : State} (h : s.StoresAtIndex t) {a : Nat}
    (hne : t.mem.read a ≠ s.mem.read a) : s.i.toNat ≤ a ∧ a ≤ s.i.toNat + 15 ∧ a < 4096 := by
  obtain ⟨lands, bytes, hlen, hmem⟩ := h
  rw [hmem, Memory.read_writeWhere] at hne
  split at hne
  · next hblock =>
    split at hne
    · next hin => exact ⟨hblock.1, by omega, hin.1⟩
    · exact absurd rfl hne
  · exact absurd rfl hne

/-- Settles O50: the one write a step can make is a block store, which keeps the canonical form. -/
theorem everyStepKeepsMemoryCanonical : Obligations.EveryStepKeepsMemoryCanonical := by
  intro s t hs h
  rcases step_executes_or_keepsProgram h with ⟨w, i, -, -, hexec⟩ | keeps
  · rw [← s.executing_mem] at hs
    rcases exec_mem_cases hexec with hmem | ⟨-, hstore⟩
    · rwa [hmem]
    · exact hstore.wf hs
  · rwa [keeps.mem]

/-- Settles O57: an instruction that changes memory is LDB or LDI storing at `I`, and a step that executes none keeps it. -/
theorem onlyStoresWriteMemory : Obligations.OnlyStoresWriteMemory := by
  refine ⟨fun i s t h hne => ?_, fun i s t a h hne => ?_, fun s t h hne => ?_⟩
  · exact ((exec_mem_cases h).resolve_left hne).1
  · exact ((exec_mem_cases h).resolve_left fun hmem => hne (by rw [hmem])).2.range_of_read_ne hne
  · rcases step_executes_or_keepsProgram h with ⟨w, i, hw, hi, hexec⟩ | keeps
    · rw [← s.executing_mem] at hne
      obtain ⟨⟨x, rfl | rfl⟩, -⟩ := (exec_mem_cases hexec).resolve_left hne
      · exact ⟨w, x, hw, .inl hi⟩
      · exact ⟨w, x, hw, .inr hi⟩
    · exact absurd keeps.mem hne

end Sys2Proof.Machine
end

section
/-! The font at reset, and fetch from memory that stores wrote (spec 20_memory.md R51, R59, R60, R65). -/

namespace Sys2Proof.Machine

/-- The glyph of the digit `d` lies at `d * 5` at reset (R59). -/
theorem readBlock_reset_glyph : ∀ d : Fin 16, State.reset.mem.readBlock (d.val * 5) 5 = glyph d := by
  decide

/-- The sprite address of a digit does not wrap (R60). -/
theorem spriteAddress_digit (d : Fin 16) : (spriteAddress (BitVec.ofNat 8 d.val)).toNat = d.val * 5 := by
  have hd : d.val % 2 ^ 8 = d.val := Nat.mod_eq_of_lt (by omega)
  rw [spriteAddress, BitVec.toNat_ofNat, BitVec.toNat_ofNat, hd]
  omega

/-- Settles O48: 0x000 and 0x04B are the addresses of the glyphs 0 and F, as LDSPR computes them. -/
theorem fontIsInMemoryAtReset : Obligations.FontIsInMemoryAtReset := by
  refine ⟨readBlock_reset_glyph 0x0, readBlock_reset_glyph 0xF, fun d => ?_⟩
  rw [spriteAddress_digit, readBlock_reset_glyph]

/-- Settles O49: the second write leaves the byte of the first, and fetch joins them high byte first. -/
theorem fetchSeesStoredBytesBigEndian : Obligations.FetchSeesStoredBytesBigEndian := by
  intro s hi lo hin
  refine ⟨wordOfBytes hi lo, State.fetch_eq_ok.2 ⟨hin, ?_⟩, wordOfBytes_toNat hi lo⟩
  have hhi : ((s.mem.write s.pc.toNat hi).write (s.pc.toNat + 1) lo).read s.pc.toNat = hi := by
    rw [Memory.read_write_ne _ _ (by omega), Memory.read_write_self]
  rw [hhi, Memory.read_write_self]

end Sys2Proof.Machine
end

section
/-! The encoding (spec 30_encoding.md R71, R72, R75 to R79, R82): the fields of a packed word, the word of its fields, and
the decoder as the inverse of the encoder. -/

namespace Sys2Proof

open Sys2Proof.Machine
open Sys2Proof.Laws.FixedBits (packNNN_toNat packXKK_toNat packXYN_toNat of_packNNN of_packXKK of_packXYN)

/-! ## Each field as a digit of the word (R71) -/

theorem opField_val (w : Word) : (opField w).val = w.toNat / 0x1000 := by
  have := w.isLt
  simp only [opField, nibbleAt, Fin.val_ofNat, Nat.shiftRight_eq_div_pow]
  omega

theorem xField_val (w : Word) : (xField w).val = w.toNat / 0x100 % 0x10 := by
  simp only [xField, nibbleAt, Fin.val_ofNat, Nat.shiftRight_eq_div_pow]

theorem yField_val (w : Word) : (yField w).val = w.toNat / 0x10 % 0x10 := by
  simp only [yField, nibbleAt, Fin.val_ofNat, Nat.shiftRight_eq_div_pow]

theorem nField_val (w : Word) : (nField w).val = w.toNat % 0x10 := rfl

theorem kkField_toNat (w : Word) : (kkField w).toNat = w.toNat % 0x100 := BitVec.toNat_setWidth ..

theorem nnnField_toNat (w : Word) : (nnnField w).toNat = w.toNat % 0x1000 := BitVec.toNat_setWidth ..

/-! ## The fields of a packed word (R72) -/

section Fields

variable {op : Nat} (x y : RegIdx) (n : Fin 16) (kk : Byte) (nnn : Addr12)

@[simp] theorem opField_packNNN (h : op < 16) : (opField (packNNN op nnn)).val = op := by
  rw [opField_val, of_packNNN nnn h]

@[simp] theorem nnnField_packNNN (h : op < 16) : nnnField (packNNN op nnn) = nnn := by
  apply BitVec.eq_of_toNat_eq
  rw [nnnField_toNat, packNNN_toNat nnn h]
  omega

@[simp] theorem opField_packXKK (h : op < 16) : (opField (packXKK op x kk)).val = op := by
  rw [opField_val, (of_packXKK x kk h).1]

@[simp] theorem xField_packXKK (h : op < 16) : xField (packXKK op x kk) = x := by
  apply Fin.ext
  rw [xField_val, packXKK_toNat x kk h]
  omega

@[simp] theorem kkField_packXKK (h : op < 16) : kkField (packXKK op x kk) = kk := by
  apply BitVec.eq_of_toNat_eq
  rw [kkField_toNat, (of_packXKK x kk h).2]

@[simp] theorem opField_packXYN (h : op < 16) : (opField (packXYN op x y n)).val = op := by
  rw [opField_val, (of_packXYN x y n h).1]

@[simp] theorem xField_packXYN (h : op < 16) : xField (packXYN op x y n) = x := by
  apply Fin.ext
  rw [xField_val, packXYN_toNat x y n h]
  omega

@[simp] theorem yField_packXYN (h : op < 16) : yField (packXYN op x y n) = y := by
  apply Fin.ext
  rw [yField_val, packXYN_toNat x y n h]
  omega

@[simp] theorem nField_packXYN (h : op < 16) : nField (packXYN op x y n) = n := by
  apply Fin.ext
  rw [nField_val, (of_packXYN x y n h).2]

end Fields

/-! ## A word is the packing of its own fields: no bit is dropped (R71, R72) -/

section Packing

variable {w : Word} {op : Nat} (hop : (opField w).val = op)
include hop

theorem packNNN_fields : packNNN op (nnnField w) = w := by
  have h : op < 16 := hop ▸ (opField w).isLt
  apply BitVec.eq_of_toNat_eq
  rw [packNNN_toNat _ h, ← hop, opField_val, nnnField_toNat]
  omega

theorem packXKK_fields {kk : Byte} (hkk : kkField w = kk) : packXKK op (xField w) kk = w := by
  have h : op < 16 := hop ▸ (opField w).isLt
  apply BitVec.eq_of_toNat_eq
  rw [packXKK_toNat _ _ h, ← hop, ← hkk, opField_val, xField_val, kkField_toNat]
  omega

theorem packXYN_fields {n : Fin 16} (hn : nField w = n) : packXYN op (xField w) (yField w) n = w := by
  have h : op < 16 := hop ▸ (opField w).isLt
  apply BitVec.eq_of_toNat_eq
  rw [packXYN_toNat _ _ _ h, ← hop, ← hn, opField_val, xField_val, yField_val, nField_val]
  omega

end Packing

/-! ## Decoding an encoded instruction -/

/-- SYS carries every address but those of the words CLS and RET (R75, R82 row 3). -/
theorem wellFormed_sys {nnn : Addr12} : (Instr.sys nnn).wellFormed = true ↔ nnn ≠ 0x0E0 ∧ nnn ≠ 0x0EE := by
  rw [Instr.wellFormed, Bool.and_eq_true, bne_iff_ne, bne_iff_ne]

/-- A word of family 0 carries its address, so the words CLS and RET are those of the addresses 0x0E0 and 0x0EE. -/
theorem packNNN_zero_inj {a b : Addr12} : packNNN 0 a = packNNN 0 b ↔ a = b := by
  refine ⟨fun h => ?_, fun h => h ▸ rfl⟩
  rw [← nnnField_packNNN (op := 0) a (by decide), h, nnnField_packNNN b (by decide)]

theorem decodeFamily0_packNNN {nnn : Addr12} (h : (Instr.sys nnn).wellFormed = true) :
    decodeFamily0 (packNNN 0 nnn) = .ok (.sys nnn) := by
  obtain ⟨hcls, hret⟩ := wellFormed_sys.1 h
  have word_ne_cls : packNNN 0 nnn ≠ 0x00E0 := mt (packNNN_zero_inj (b := 0x0E0)).1 hcls
  have word_ne_ret : packNNN 0 nnn ≠ 0x00EE := mt (packNNN_zero_inj (b := 0x0EE)).1 hret
  rw [decodeFamily0, if_neg word_ne_cls, if_neg word_ne_ret, nnnField_packNNN nnn (by decide)]

/-- The decoder inverts the encoder on instructions (R76, R82). -/
theorem decode_encode {i : Instr} (h : i.wellFormed = true) : decode (encode i) = .ok i := by
  cases i
  case cls | ret => rfl
  case sys nnn => simp [encode, decode, decodeFamily0_packNNN h]
  case jp | call | lda | jpv => simp [encode, decode]
  case seImm | sneImm | ldImm | addImm | rnd => simp [encode, decode]
  case seReg | sneReg | drw => simp [encode, decode]
  case ldReg | or | and | xor | addReg | sub | shr | subn | shl => simp [encode, decode, decodeFamily8]
  case skp | sknp => simp [encode, decode, decodeFamilyE]
  case ldt | ldk | ldf | lds | addi | ldspr | ldb | ldi | ldj => simp [encode, decode, decodeFamilyF]

/-- The two bytes of a word, the high one first, are its big-endian word again (R51). -/
theorem wordOfBytes_bytes (w : Word) : wordOfBytes ((w >>> 8).setWidth 8) (w.setWidth 8) = w := by
  have := w.isLt
  apply BitVec.eq_of_toNat_eq
  rw [wordOfBytes_toNat, BitVec.toNat_setWidth, BitVec.toNat_setWidth, BitVec.toNat_ushiftRight, Nat.shiftRight_eq_div_pow]
  omega

theorem decodeBytes_bytesOfWord {w : Word} {i : Instr} (h : decode w = .ok i) (rest : List Byte) :
    decodeBytes (bytesOfWord w ++ rest) = .ok (i, rest) := by
  simp only [bytesOfWord, List.cons_append, List.nil_append, decodeBytes, wordOfBytes_bytes, h]

/-- Settles O2: the decoder inverts the encoder on words, and two bytes hold one word. -/
theorem encodedInstructionsDecodeBack : Obligations.EncodedInstructionsDecodeBack :=
  fun _ rest h => decodeBytes_bytesOfWord (decode_encode h) rest

/-! ## The illegal words by their fields (R79) -/

theorem illegalWord_iff {w : Word} : IllegalWord w ↔
    ((opField w).val = 0x5 ∧ nField w ≠ 0) ∨ ((opField w).val = 0x9 ∧ nField w ≠ 0) ∨
    ((opField w).val = 0x8 ∧ (nField w).val ∈ [0x8, 0x9, 0xA, 0xB, 0xC, 0xD, 0xF]) ∨
    ((opField w).val = 0xE ∧ kkField w ∉ [0x9E, 0xA1]) ∨
    ((opField w).val = 0xF ∧ kkField w ∉ [0x07, 0x0A, 0x15, 0x18, 0x1E, 0x29, 0x33, 0x55, 0x65]) := by
  have hn : nField w = 0 ↔ w.toNat % 0x10 = 0 := Fin.ext_iff
  have hkk (b : Byte) : kkField w = b ↔ w.toNat % 0x100 = b.toNat := by rw [← kkField_toNat, BitVec.toNat_inj]
  simp only [IllegalWord, opField_val, nField_val, ne_eq, hn, List.mem_cons, List.not_mem_nil, hkk]
  rfl

/-! ## What the decoder answers -/

/-- The decoder accepts the word of an instruction, and rejects an illegal word by name. -/
inductive Decoded (w : Word) : Except DecodeError Instr → Prop
  | accepted {i : Instr} (legal : ¬ IllegalWord w) (wf : i.wellFormed = true) (word : encode i = w) : Decoded w (.ok i)
  | rejected (illegal : IllegalWord w) : Decoded w (.error (.unknownOpcode w))

section Families

variable {w : Word} {op : Nat} (hop : (opField w).val = op)
include hop

/-- Families 0 to 4, 6, 7 and A to D have no illegal words. -/
theorem legal_of_opField (h : op ∉ [0x5, 0x8, 0x9, 0xE, 0xF]) : ¬ IllegalWord w := by
  simp only [List.mem_cons, List.not_mem_nil, or_false, not_or] at h
  simp [illegalWord_iff, hop, h]

theorem Decoded.of_packNNN {i : Instr} (h : op ∉ [0x5, 0x8, 0x9, 0xE, 0xF]) (wf : i.wellFormed = true)
    (word : encode i = packNNN op (nnnField w)) : Decoded w (.ok i) :=
  .accepted (legal_of_opField hop h) wf (word.trans (packNNN_fields hop))

theorem Decoded.of_packXKK {i : Instr} (h : op ∉ [0x5, 0x8, 0x9, 0xE, 0xF]) (wf : i.wellFormed = true)
    (word : encode i = packXKK op (xField w) (kkField w)) : Decoded w (.ok i) :=
  .accepted (legal_of_opField hop h) wf (word.trans (packXKK_fields hop rfl))

/-- Families 5 and 9: one instruction, whose low nibble is 0 (D2). -/
theorem Decoded.of_nibbleZero {i : Instr} (h : op = 0x5 ∨ op = 0x9) (wf : i.wellFormed = true)
    (word : encode i = packXYN op (xField w) (yField w) 0) :
    Decoded w (if nField w = 0 then .ok i else .error (.unknownOpcode w)) := by
  have illegal : IllegalWord w ↔ nField w ≠ 0 := by
    rcases h with rfl | rfl <;> simp [illegalWord_iff, hop]
  split
  · next hn => exact .accepted (by simp [illegal, hn]) wf (word.trans (packXYN_fields hop hn))
  · next hn => exact .rejected (illegal.2 hn)

end Families

/-- Family 0: a word that is neither CLS nor RET is the SYS of its address (R75). -/
theorem decoded_decodeFamily0 {w : Word} (hop : (opField w).val = 0x0) : Decoded w (decodeFamily0 w) := by
  have legal : ¬ IllegalWord w := legal_of_opField hop (by decide)
  have word : packNNN 0x0 (nnnField w) = w := packNNN_fields hop
  unfold decodeFamily0
  split
  · next hcls => exact .accepted legal rfl hcls.symm
  · next hcls =>
    split
    · next hret => exact .accepted legal rfl hret.symm
    · next hret =>
      have ne_cls : nnnField w ≠ 0x0E0 := fun he => hcls (by rw [← word, he]; rfl)
      have ne_ret : nnnField w ≠ 0x0EE := fun he => hret (by rw [← word, he]; rfl)
      exact .accepted legal (wellFormed_sys.2 ⟨ne_cls, ne_ret⟩) word

theorem decoded_decodeFamily8 {w : Word} (hop : (opField w).val = 0x8) : Decoded w (decodeFamily8 w) := by
  have illegal : IllegalWord w ↔ (nField w).val ∈ [0x8, 0x9, 0xA, 0xB, 0xC, 0xD, 0xF] := by simp [illegalWord_iff, hop]
  unfold decodeFamily8
  split
  case h_10 =>
    refine .rejected (illegal.2 ?_)
    have := (nField w).isLt
    simp only [imp_false, List.mem_cons, List.not_mem_nil] at *
    omega
  all_goals
    next hn => exact .accepted (by rw [illegal, hn]; decide) rfl (packXYN_fields hop (Fin.ext hn))

theorem decoded_decodeFamilyE {w : Word} (hop : (opField w).val = 0xE) : Decoded w (decodeFamilyE w) := by
  have illegal : IllegalWord w ↔ kkField w ∉ [0x9E, 0xA1] := by simp [illegalWord_iff, hop]
  unfold decodeFamilyE
  repeat
    split
    · next hkk => exact .accepted (by rw [illegal, hkk]; decide) rfl (packXKK_fields hop hkk)
  exact .rejected (illegal.2 (by simp only [List.mem_cons, List.not_mem_nil, or_false, not_false_eq_true, *]))

theorem decoded_decodeFamilyF {w : Word} (hop : (opField w).val = 0xF) : Decoded w (decodeFamilyF w) := by
  have illegal : IllegalWord w ↔ kkField w ∉ [0x07, 0x0A, 0x15, 0x18, 0x1E, 0x29, 0x33, 0x55, 0x65] := by
    simp [illegalWord_iff, hop]
  unfold decodeFamilyF
  repeat
    split
    · next hkk => exact .accepted (by rw [illegal, hkk]; decide) rfl (packXKK_fields hop hkk)
  exact .rejected (illegal.2 (by simp only [List.mem_cons, List.not_mem_nil, or_false, not_false_eq_true, *]))

/-- The decoder, family by family (R75, R76, R79). -/
theorem decoded_decode (w : Word) : Decoded w (decode w) := by
  unfold decode
  split
  case h_1 hop => exact decoded_decodeFamily0 hop
  case h_2 hop | h_3 hop | h_11 hop | h_12 hop => exact .of_packNNN hop (by decide) rfl rfl
  case h_4 hop | h_5 hop | h_7 hop | h_8 hop | h_13 hop => exact .of_packXKK hop (by decide) rfl rfl
  case h_6 hop | h_10 hop => exact .of_nibbleZero hop (by decide) rfl rfl
  case h_9 hop => exact decoded_decodeFamily8 hop
  case h_14 hop => exact .accepted (legal_of_opField hop (by decide)) rfl (packXYN_fields hop rfl)
  case h_15 hop => exact decoded_decodeFamilyE hop
  case h_16 =>
    apply decoded_decodeFamilyF
    have := (opField w).isLt
    simp only [imp_false] at *
    omega

/-- Settles O3: an accepted word is the word of its instruction. -/
theorem decodedWordsEncodeBack : Obligations.DecodedWordsEncodeBack := by
  intro w i h
  cases h ▸ decoded_decode w with
  | accepted _ wf word => exact ⟨wf, word⟩

/-- Settles O4: the decoder's answer is one of two, and an illegal word excludes acceptance. -/
theorem decoderRejectsExactlyTheIllegalWords : Obligations.DecoderRejectsExactlyTheIllegalWords := by
  intro w
  have answer := decoded_decode w
  generalize decode w = o at answer ⊢
  cases answer with
  | accepted legal _ _ => exact ⟨fun illegal => absurd illegal legal, fun _ => ⟨_, rfl⟩⟩
  | rejected illegal => exact ⟨fun _ => rfl, fun legal => absurd illegal legal⟩

/-- Settles O1: CLS, RET, SYS, every operand format and one illegal word of each of the families 5, 8, E and F. -/
theorem sampleWordsDecode : Obligations.SampleWordsDecode := by
  unfold Obligations.SampleWordsDecode
  decide

end Sys2Proof
end

section
/-! Every instruction answers a next state (spec 30_encoding.md R81, 40_cycle.md R94, R98). -/

namespace Sys2Proof.Machine

theorem execCall_next (nnn : Addr12) (s : State) : ∃ t, execCall nnn s = .next t := by
  rcases Nat.lt_or_ge s.sp.toNat 16 with h | h
  · exact ⟨_, execCall_push h⟩
  · exact ⟨_, execCall_overflow h⟩

/-- With at most 16 return addresses RET has a stack entry to pop, or none is left (R29, R138). -/
theorem execRet_next {s : State} (hsp : s.sp.toNat ≤ 16) : ∃ t, execRet s = .next t := by
  by_cases h0 : s.sp = 0
  · exact ⟨_, execRet_underflow h0⟩
  · exact ⟨_, execRet_pop h0 (by omega)⟩

theorem execLdk_next (x : RegIdx) (s : State) : ∃ t, execLdk x s = .next t := by
  by_cases h : ∃ k, s.wait = .captured k
  · obtain ⟨k, hk⟩ := h
    exact ⟨_, execLdk_captured hk⟩
  · exact ⟨_, execLdk_stalls (not_exists.1 h)⟩

theorem execDrw_next (x y : RegIdx) (n : Fin 16) (s : State) : ∃ t, execDrw x y n s = .next t := by
  unfold execDrw
  split <;> exact ⟨_, rfl⟩

theorem execLdb_next (x : RegIdx) (s : State) : ∃ t, execLdb x s = .next t := by
  rcases Nat.lt_or_ge (s.i.toNat + 2) 4096 with h | h
  · exact ⟨_, execLdb_stores h⟩
  · exact ⟨_, execLdb_faults h⟩

theorem execLdi_next (x : RegIdx) (s : State) : ∃ t, execLdi x s = .next t := by
  rcases Nat.lt_or_ge (s.i.toNat + x.val) 4096 with h | h
  · exact ⟨_, execLdi_stores h⟩
  · exact ⟨_, execLdi_faults h⟩

theorem execLdj_next (x : RegIdx) (s : State) : ∃ t, execLdj x s = .next t := by
  rcases Nat.lt_or_ge (s.i.toNat + x.val) 4096 with h | h
  · exact ⟨_, execLdj_loads h⟩
  · exact ⟨_, execLdj_faults h⟩

/-- Settles O60: only RET can stop, with `sp` above 16, and a bounded state excludes it; the other instructions with a case
that raises latch the fault in a next state. -/
theorem everyInstructionAnswersANextState : Obligations.EveryInstructionAnswersANextState := by
  intro i s hs
  cases i
  case ret => exact execRet_next hs.sp_le
  case call nnn => exact execCall_next nnn s
  case ldk x => exact execLdk_next x s
  case drw x y n => exact execDrw_next x y n s
  case ldb x => exact execLdb_next x s
  case ldi x => exact execLdi_next x s
  case ldj x => exact execLdj_next x s
  all_goals exact ⟨_, rfl⟩

end Sys2Proof.Machine
end

section
/-! The CPU cycle (spec 40_cycle.md R90 to R93, R97): its two faults before the advance, the instruction it executes, and the
timers it leaves alone. -/

namespace Sys2Proof.Machine

/-! ## Fetch and decode faults -/

/-- From 4096 up, the first address outside memory is `pc` itself (R55, R91). -/
theorem State.fetch_outside {s : State} (h : 4096 ≤ s.pc.toNat) : s.fetch = .error (.memoryOutOfBounds s.pc.toNat) := by
  simp [State.fetch, memRead2, memRead1, Config.memSize, h]

/-- A fetch at the last byte of memory finds its second byte outside (R55, R91, D13). -/
theorem State.fetch_straddling {s : State} (h : s.pc.toNat = 4095) : s.fetch = .error (.memoryOutOfBounds 4096) := by
  simp [State.fetch, memRead2, memRead1, Config.memSize, h]

theorem cycle_of_fetch_error {s : State} {f : CoreFault} (h : s.fetch = .error f) : cycle s = .next (s.raise f) := by
  simp [cycle, h]

/-- A word that decodes to no instruction ends the cycle before the advance (R93). -/
theorem cycle_of_undecodable {s : State} {w : Word} (hw : s.fetch = .ok w) (hd : ∀ i, decode w ≠ .ok i) :
    cycle s = .next (s.raise (.unknownOpcode w)) := by
  cases he : decode w with
  | error e => simp [cycle, hw, he]
  | ok i => exact absurd he (hd i)

/-- Settles O7: the first byte of the word, or only its second, is outside memory. -/
theorem fetchOutsideMemoryIsFatal : Obligations.FetchOutsideMemoryIsFatal := by
  intro s
  exact ⟨fun h => cycle_of_fetch_error (State.fetch_outside h), fun h => cycle_of_fetch_error (State.fetch_straddling h)⟩

/-- Settles O6: the cycle raises from the state it was given, in which the step has counted the fire, and the latch then
stops the core. -/
theorem illegalWordIsFatalBeforeTheAdvance : Obligations.IllegalWordIsFatalBeforeTheAdvance := by
  intro s w hrun hcpu hin hw hd
  have hfetch : s.fetch = .ok w := State.fetch_eq_ok.2 ⟨hin, hw⟩
  have hstep : step s = .next (s.fired.raise (.unknownOpcode w)) := by
    rw [step_of_cpu hrun hcpu]
    exact cycle_of_undecodable ((fetch_fired s).trans hfetch) hd
  exact ⟨cycle_of_undecodable hfetch hd, _, hstep, s.takeEvent_pc, rfl, latchedFaultStopsEveryStep.1 _ _ rfl⟩

/-! ## The instruction a step executes -/

theorem State.executing_eq (s : State) : s.executing =
    { s.takeEvent with pc := s.pc + 2, cpuClock := { s.cpuClock with last := s.cpuClock.last + s.cpuClock.period } } := by
  rw [State.executing, State.advancePc_eq, State.fired_eq, State.takeEvent_eq]
  rfl

theorem step_of_decode {s : State} {w : Word} {i : Instr} (hrun : s.Running) (hcpu : s.Delivers (.fire .cpu))
    (hw : s.fetch = .ok w) (hi : decode w = .ok i) : step s = exec i s.executing :=
  (step_of_cpu hrun hcpu).trans (cycle_of_decode ((fetch_fired s).trans hw) hi)

/-- Settles O5: the step is the cycle of the state that took the fire. -/
theorem stepRunsTheDecodedInstruction : Obligations.StepRunsTheDecodedInstruction := by
  intro s i hrun hcpu hin hi
  rw [← State.executing_eq]
  exact step_of_decode hrun hcpu (State.fetch_eq_ok.2 ⟨hin, rfl⟩) hi

/-! ## The timers -/

/-- `t` has the timers of `s`. -/
structure State.KeepsTimers (s t : State) : Prop where
  dt : t.dt = s.dt
  st : t.st = s.st

/-- SKP and SKNP, whether they skip or raise, keep the timers (R194). -/
theorem State.skipOnKey_keepsTimers (s : State) (x : RegIdx) (down : Bool) : s.KeepsTimers (s.skipOnKey x down) := by
  rcases s.skipOnKey_cases x down with ⟨c, hc⟩ | ⟨f, hf⟩
  · rw [hc, State.skipIf_eq]; exact ⟨rfl, rfl⟩
  · rw [hf]; exact ⟨rfl, rfl⟩

theorem execCall_keepsTimers {nnn : Addr12} {s t : State} (h : execCall nnn s = .next t) : s.KeepsTimers t := by
  by_cases hs : s.sp.toNat < 16
  · rw [execCall_push hs] at h; cases h; exact ⟨rfl, rfl⟩
  · rw [execCall_overflow (Nat.le_of_not_lt hs)] at h; cases h; exact ⟨rfl, rfl⟩

theorem execRet_keepsTimers {s t : State} (h : execRet s = .next t) : s.KeepsTimers t := by
  unfold execRet at h
  split at h
  · cases h; exact ⟨rfl, rfl⟩
  · split at h
    · cases h; exact ⟨rfl, rfl⟩
    · cases h

theorem execLdk_keepsTimers {x : RegIdx} {s t : State} (h : execLdk x s = .next t) : s.KeepsTimers t := by
  rcases execLdk_cases h with ⟨k, rfl⟩ | rfl <;> exact ⟨rfl, rfl⟩

theorem execDrw_keepsTimers {x y : RegIdx} {n : Fin 16} {s t : State} (h : execDrw x y n s = .next t) :
    s.KeepsTimers t := by
  unfold execDrw at h
  split at h <;> cases h <;> exact ⟨rfl, rfl⟩

theorem execLdb_keepsTimers {x : RegIdx} {s t : State} (h : execLdb x s = .next t) : s.KeepsTimers t := by
  rcases Nat.lt_or_ge (s.i.toNat + 2) 4096 with hin | hout
  · rw [execLdb_stores hin] at h; cases h; exact ⟨rfl, rfl⟩
  · rw [execLdb_faults hout] at h; cases h; exact ⟨rfl, rfl⟩

theorem execLdi_keepsTimers {x : RegIdx} {s t : State} (h : execLdi x s = .next t) : s.KeepsTimers t := by
  rcases Nat.lt_or_ge (s.i.toNat + x.val) 4096 with hin | hout
  · rw [execLdi_stores hin] at h; cases h; exact ⟨rfl, rfl⟩
  · rw [execLdi_faults hout] at h; cases h; exact ⟨rfl, rfl⟩

theorem execLdj_keepsTimers {x : RegIdx} {s t : State} (h : execLdj x s = .next t) : s.KeepsTimers t := by
  rcases Nat.lt_or_ge (s.i.toNat + x.val) 4096 with hin | hout
  · rw [execLdj_loads hin] at h; cases h; exact ⟨rfl, rfl⟩
  · rw [execLdj_faults hout] at h; cases h; exact ⟨rfl, rfl⟩

/-- What an instruction does to the timers: LDF writes `DT`, LDS writes `ST`, no other writes either (R97, R199, R200). -/
theorem exec_timers_cases {i : Instr} {s t : State} (h : exec i s = .next t) :
    s.KeepsTimers t ∨ (∃ x, i = .ldf x ∧ t = s.withDt s.v[x]) ∨ ∃ x, i = .lds x ∧ t = s.withSt s.v[x] := by
  cases i
  case ldf x => cases h; exact .inr (.inl ⟨x, rfl, rfl⟩)
  case lds x => cases h; exact .inr (.inr ⟨x, rfl, rfl⟩)
  case call => exact .inl (execCall_keepsTimers h)
  case ret => exact .inl (execRet_keepsTimers h)
  case ldk => exact .inl (execLdk_keepsTimers h)
  case drw => exact .inl (execDrw_keepsTimers h)
  case ldb => exact .inl (execLdb_keepsTimers h)
  case ldi => exact .inl (execLdi_keepsTimers h)
  case ldj => exact .inl (execLdj_keepsTimers h)
  case skp | sknp => cases h; exact .inl (s.skipOnKey_keepsTimers _ _)
  case seImm | sneImm | seReg | sneReg => cases h; rw [State.skipIf_eq]; exact .inl ⟨rfl, rfl⟩
  case sys | addi => cases h; split <;> exact .inl ⟨rfl, rfl⟩
  all_goals cases h; exact .inl ⟨rfl, rfl⟩

/-- Settles O58: a fault of fetch or decode sets the latch only, and the advance touches neither timer nor register. -/
theorem cyclesDoNotAdvanceTheTimers : Obligations.CyclesDoNotAdvanceTheTimers := by
  intro s t h
  rcases cycle_cases h with ⟨f, rfl⟩ | ⟨w, i, hw, hi, hexec⟩
  · exact ⟨fun hne => absurd rfl hne, fun hne => absurd rfl hne⟩
  · rcases exec_timers_cases hexec with keeps | ⟨x, rfl, rfl⟩ | ⟨x, rfl, rfl⟩
    · exact ⟨fun hne => absurd keeps.dt hne, fun hne => absurd keeps.st hne⟩
    · exact ⟨fun _ => ⟨w, x, hw, hi, rfl⟩, fun hne => absurd rfl hne⟩
    · exact ⟨fun hne => absurd rfl hne, fun _ => ⟨w, x, hw, hi, rfl⟩⟩

end Sys2Proof.Machine
end

section
/-! The skip family (spec 41_skip.md R100 to R104): each skip is `skipIf` of its condition, and `skipIf` moves pc alone. -/

namespace Sys2Proof.Machine

/-- A skip when two bytes are equal (R100, R102). -/
theorem State.skipIf_beq (s : State) (a b : Byte) :
    s.skipIf (a == b) = { s with pc := if a = b then s.pc + 2 else s.pc } := by
  simp only [State.skipIf_eq, beq_iff_eq]

/-- A skip when two bytes differ (R101, R103). -/
theorem State.skipIf_bne (s : State) (a b : Byte) :
    s.skipIf (a != b) = { s with pc := if a = b then s.pc else s.pc + 2 } := by
  simp only [State.skipIf_eq, bne_iff_ne, ne_eq, ite_not]

theorem exec_seImm (x : RegIdx) (kk : Byte) (s : State) :
    exec (.seImm x kk) s = .next { s with pc := if s.v[x] = kk then s.pc + 2 else s.pc } :=
  congrArg Host.Outcome.next (s.skipIf_beq s.v[x] kk)

theorem exec_sneImm (x : RegIdx) (kk : Byte) (s : State) :
    exec (.sneImm x kk) s = .next { s with pc := if s.v[x] = kk then s.pc else s.pc + 2 } :=
  congrArg Host.Outcome.next (s.skipIf_bne s.v[x] kk)

theorem exec_seReg (x y : RegIdx) (s : State) :
    exec (.seReg x y) s = .next { s with pc := if s.v[x] = s.v[y] then s.pc + 2 else s.pc } :=
  congrArg Host.Outcome.next (s.skipIf_beq s.v[x] s.v[y])

theorem exec_sneReg (x y : RegIdx) (s : State) :
    exec (.sneReg x y) s = .next { s with pc := if s.v[x] = s.v[y] then s.pc else s.pc + 2 } :=
  congrArg Host.Outcome.next (s.skipIf_bne s.v[x] s.v[y])

/-- Settles O9: the words are of format XKK in the families 3 and 4, and the effects are the skips on `V[x] = kk` and its
negation. -/
theorem immediateSkipsComplete : Obligations.ImmediateSkipsComplete :=
  fun x kk s => ⟨rfl, exec_seImm x kk s, rfl, exec_sneImm x kk s⟩

/-- Settles O10: a register equals itself, so the general effects decide the two clauses with one register twice. -/
theorem registerSkipsComplete : Obligations.RegisterSkipsComplete := by
  intro x y s
  refine ⟨exec_seReg x y s, exec_sneReg x y s, ?_, ?_⟩
  · rw [exec_seReg, if_pos rfl]
  · rw [exec_sneReg, if_pos rfl]

end Sys2Proof.Machine
end

section
/-! Load, logic and arithmetic (spec 42_alu.md R110 to R123): every meaning is one write of a register, or of a result and
then its flag, and the flag carries what the 8-bit result leaves out. -/

namespace Sys2Proof.Machine

/-! ## The words -/

/-- Format XYN with the family nibble and the function nibble first (R72). -/
theorem packXYN_eq (op : Nat) (x y : RegIdx) (n : Fin 16) :
    packXYN op x y n = BitVec.ofNat 16 (op * 0x1000 + n.val + x.val * 0x100 + y.val * 0x10) :=
  congrArg (BitVec.ofNat 16) (by omega)

/-! ## The two shapes of a write (R110) -/

theorem writesReg_setReg (s : State) (x : RegIdx) (b : Byte) : WritesReg s (.next (s.setReg x b)) x b := by
  refine ⟨s.v.set x b, rfl, ?_, fun r hr => ?_⟩
  · rw [getElem_setReg, if_pos rfl]
  · rw [getElem_setReg, if_neg hr]

theorem writesRegAndFlag_setResultAndFlag (s : State) (x : RegIdx) (b : Byte) (f : Bool) :
    WritesRegAndFlag s (.next (s.setResultAndFlag x b f)) x b (flagByte f) := by
  have hreg := s.reg_setResultAndFlag x (b := b) (f := f)
  refine ⟨_, rfl, ?_, fun hx => ?_, fun r hr hF => ?_⟩
  · exact (hreg 15).trans (if_pos rfl)
  · exact (hreg x).trans ((if_neg hx).trans (if_pos rfl))
  · exact (hreg r).trans ((if_neg hF).trans (if_neg hr))

/-! ## What each flag carries -/

theorem flagByte_toNat_le_one (f : Bool) : (flagByte f).toNat ≤ 1 := by cases f <;> decide

/-- The carry and the 8-bit sum together are the exact sum of two bytes (R116). -/
theorem carry8_add_result (a b : Byte) :
    a.toNat + b.toNat =
      (flagByte (carry8 (a.toNat + b.toNat))).toNat * 256 + (BitVec.ofNat 8 (a.toNat + b.toNat)).toNat := by
  have ha := a.isLt
  have hb := b.isLt
  simp only [flagByte_toNat, carry8_iff, BitVec.toNat_ofNat]
  split <;> omega

theorem flagByte_notBorrow (a b : Byte) : flagByte (notBorrow a b) = if b.toNat ≤ a.toNat then 1 else 0 := by
  by_cases h : b.toNat ≤ a.toNat
  · rw [if_pos h, flagByte_eq_one, notBorrow_iff]; exact h
  · rw [if_neg h, notBorrow, decide_eq_false h]; rfl

/-- The 8-bit difference is short of the exact one by 256 when there is a borrow (R118, R119). -/
theorem difference_add_subtrahend (a b : Byte) :
    (a - b).toNat + b.toNat = a.toNat + (1 - (flagByte (notBorrow a b)).toNat) * 256 := by
  have ha := a.isLt
  have hb := b.isLt
  simp only [flagByte_toNat, notBorrow_iff, BitVec.toNat_sub]
  split <;> omega

/-- A bit of a byte, as a flag, is a binary digit of the byte. -/
theorem flagByte_getLsbD (b : Byte) (k : Nat) : (flagByte (b.getLsbD k)).toNat = b.toNat / 2 ^ k % 2 := by
  rw [← Nat.toNat_testBit]
  show _ = (b.getLsbD k).toNat
  cases b.getLsbD k <;> rfl

/-- A right shift and the bit it moves out hold the whole source (R120). -/
theorem shiftedOutRight_add_result (b : Byte) :
    b.toNat = (b >>> 1).toNat * 2 + (flagByte (shiftedOutRight b)).toNat := by
  rw [shiftedOutRight, flagByte_getLsbD, BitVec.toNat_ushiftRight, Nat.shiftRight_eq_div_pow]
  omega

/-- A left shift and the bit it moves out hold twice the source (R121). -/
theorem shiftedOutLeft_add_result (b : Byte) :
    b.toNat * 2 = (flagByte (shiftedOutLeft b)).toNat * 256 + (b <<< 1).toNat := by
  have hb := b.isLt
  rw [shiftedOutLeft, flagByte_getLsbD, BitVec.toNat_shiftLeft, Nat.shiftLeft_eq]
  omega

/-! ## The instructions that write a flag -/

/-- Settles O13: the sum narrowed to 8 bits and its carry lose nothing of the exact sum. -/
theorem addRegisterSetsCarry : Obligations.AddRegisterSetsCarry := fun x y s =>
  ⟨_, _, writesRegAndFlag_setResultAndFlag s x _ _, flagByte_toNat_le_one _, carry8_add_result s.v[x] s.v[y]⟩

/-- Settles O14: SUBN is SUB with the operands reversed. -/
theorem subtractionsSetNotBorrow : Obligations.SubtractionsSetNotBorrow := fun x y s =>
  ⟨⟨_, _, writesRegAndFlag_setResultAndFlag s x _ _, flagByte_notBorrow s.v[x] s.v[y],
      difference_add_subtrahend s.v[x] s.v[y]⟩,
    ⟨_, _, writesRegAndFlag_setResultAndFlag s x _ _, flagByte_notBorrow s.v[y] s.v[x],
      difference_add_subtrahend s.v[y] s.v[x]⟩⟩

/-- Settles O15: both shifts read the one source that the quirk selects, and the flag is the digit they push out of it. -/
theorem shiftsMoveTheBitOutToTheFlag : Obligations.ShiftsMoveTheBitOutToTheFlag := fun x y s =>
  ⟨⟨_, _, writesRegAndFlag_setResultAndFlag s x _ _, flagByte_toNat_le_one _,
      shiftedOutRight_add_result (s.shiftSource x y)⟩,
    ⟨_, _, writesRegAndFlag_setResultAndFlag s x _ _, flagByte_toNat_le_one _,
      shiftedOutLeft_add_result (s.shiftSource x y)⟩⟩

/-! ## The instructions that write no flag -/

/-- Narrowing to 8 bits reduces modulo 256 (R117). -/
theorem ofNat_mod_256 (n : Nat) : BitVec.ofNat 8 (n % 256) = BitVec.ofNat 8 n := by
  apply BitVec.eq_of_toNat_eq
  rw [BitVec.toNat_ofNat, BitVec.toNat_ofNat, Nat.mod_mod]

/-- Settles O11: each is one register write. -/
theorem immediateLoadAndAddWriteNoFlag : Obligations.ImmediateLoadAndAddWriteNoFlag := by
  intro x kk s
  refine ⟨rfl, writesReg_setReg s x kk, rfl, ?_⟩
  rw [ofNat_mod_256]
  exact writesReg_setReg s x _

/-- Settles O12: each is one register write, and the low nibble of its word is its function. -/
theorem copyAndLogicWriteOnlyTheDestination : Obligations.CopyAndLogicWriteOnlyTheDestination := fun x y s =>
  ⟨⟨packXYN_eq 0x8 x y 0x0, writesReg_setReg s x _⟩, ⟨packXYN_eq 0x8 x y 0x1, writesReg_setReg s x _⟩,
    ⟨packXYN_eq 0x8 x y 0x2, writesReg_setReg s x _⟩, ⟨packXYN_eq 0x8 x y 0x3, writesReg_setReg s x _⟩⟩

/-- A byte under a mask has no bit outside it (R122). -/
theorem and_and_not_eq_zero (b mask : Byte) : b &&& mask &&& ~~~mask = 0 := by
  rw [BitVec.and_assoc, BitVec.and_not_self]
  exact BitVec.and_zero

/-- Settles O16: the draw is masked before the one register write, and then counted. -/
theorem randomByteIsMasked : Obligations.RandomByteIsMasked := by
  intro x kk s
  have hx : (s.v.set x (s.randomByte &&& kk))[x] = s.randomByte &&& kk := by rw [getElem_setReg, if_pos rfl]
  refine ⟨s.v.set x (s.randomByte &&& kk), rfl, hx, ?_, fun r hr => ?_⟩
  · rw [hx, and_and_not_eq_zero]
  · rw [getElem_setReg, if_neg hr]

end Sys2Proof.Machine
end

section
/-! Control transfer (spec 43_control.md R135 to R140): the targets are sums no 16-bit word wraps, and CALL and RET each split
on what `sp` leaves of the stack before they write. -/

namespace Sys2Proof.Machine

/-- At most 0xFF + 0xFFF, so the 16-bit sum does not wrap (R140). -/
theorem State.jpvTarget_toNat (s : State) (nnn : Addr12) :
    (s.jpvTarget nnn).toNat = s.v[(0 : RegIdx)].toNat + nnn.toNat := by
  have hv : s.v[(0 : RegIdx)].toNat < 256 := BitVec.isLt _
  have hnnn := nnn.isLt
  rw [State.jpvTarget, State.reg, BitVec.toNat_add, zextAddr_toNat, BitVec.toNat_setWidth]
  omega

/-- With `sp` above 16 RET points past the last entry (R29, log 16). -/
theorem execRet_beyond {s : State} (h : 16 < s.sp.toNat) : execRet s = .fault .stackPointerBeyondStack := by
  have h0 : s.sp ≠ 0 := BitVec.toNat_ne_iff_ne.1 (Nat.ne_of_gt (Nat.zero_lt_of_lt h))
  rw [execRet, if_neg h0, dif_neg (by omega)]

/-- Settles O17: `SYS_FATAL` selects between the state as it is and the raised fault. -/
theorem sysDoesNothingUnlessFatal : Obligations.SysDoesNothingUnlessFatal := by
  intro nnn s
  constructor
  · intro h
    exact congrArg Host.Outcome.next (if_neg (Bool.eq_false_iff.1 h))
  · intro h
    exact congrArg Host.Outcome.next (if_pos h)

/-- Settles O18: each jump writes its target to `pc` alone, and neither target is reduced. -/
theorem jumpsSetPc : Obligations.JumpsSetPc := fun nnn s =>
  ⟨rfl, ⟨_, rfl, zextAddr_toNat nnn⟩, rfl, ⟨_, rfl, s.jpvTarget_toNat nnn⟩⟩

/-- Settles O19: below 16 addresses there is room for one more, and `sp` counts it without wrapping. -/
theorem callPushesOrOverflows : Obligations.CallPushesOrOverflows := by
  intro nnn s
  refine ⟨fun h => ?_, execCall_overflow⟩
  have hsp : (s.sp + 1).toNat = s.sp.toNat + 1 := BitVec.toNat_add_of_lt (Nat.lt_of_le_of_lt h (by decide))
  exact ⟨_, _, execCall_push h, zextAddr_toNat nnn, hsp⟩

/-- Settles O20: there is a top entry to pop, or the stack is empty, or `sp` points past the 16 entries. -/
theorem returnPopsOrUnderflows : Obligations.ReturnPopsOrUnderflows := by
  intro s
  refine ⟨fun h hpos => ?_, fun h => execRet_underflow (BitVec.eq_of_toNat_eq h), execRet_beyond⟩
  have h0 : s.sp ≠ 0 := BitVec.toNat_ne_iff_ne.1 (Nat.ne_of_gt hpos)
  have hsp : (s.sp - 1).toNat = s.sp.toNat - 1 := BitVec.toNat_sub_of_le hpos
  exact ⟨_, execRet_pop h0 h, hsp⟩

end Sys2Proof.Machine
end

section
/-! The index register and the memory transfers (spec 44_index_memory.md R150 to R157): a transfer in memory reads and writes
whole blocks, and one that faults leaves each destination before the fault old or new. -/

namespace Sys2Proof.Machine

/-! ## The index register -/

/-- At most 255 * 5, so the 16-bit product does not wrap (R60). -/
theorem spriteAddress_toNat (digit : Byte) : (spriteAddress digit).toNat = digit.toNat * 5 := by
  have hdigit := digit.isLt
  rw [spriteAddress, BitVec.toNat_ofNat]
  omega

/-- Settles O21: the word is of format NNN in the family A, and the address is zero-extended. -/
theorem loadIndexSetsI : Obligations.LoadIndexSetsI := fun nnn _ => ⟨rfl, _, rfl, zextAddr_toNat nnn⟩

/-- Settles O22: the whole byte is the digit, and five times it fits in 16 bits. -/
theorem loadSpriteAddressSetsI : Obligations.LoadSpriteAddressSetsI := fun x s => ⟨_, rfl, spriteAddress_toNat s.v[x]⟩

theorem flagByte_carry16 (sum : Nat) : flagByte (carry16 sum) = if 0xFFFF < sum then 1 else 0 := by
  by_cases h : 0xFFFF < sum
  · rw [if_pos h, flagByte_eq_one, carry16_iff]; exact h
  · rw [if_neg h, carry16, decide_eq_false h]; rfl

/-- Settles O23: the quirk selects between the sum alone and the sum with a write of VF after it. -/
theorem addIndexWrapsAndFlagsUnderTheQuirk : Obligations.AddIndexWrapsAndFlagsUnderTheQuirk := by
  intro x s
  refine ⟨BitVec.ofNat 16 (s.i.toNat + s.v[x].toNat), BitVec.toNat_ofNat .., fun hq => ?_, fun hq => ?_⟩
  · exact congrArg Host.Outcome.next (if_neg (Bool.eq_false_iff.1 hq))
  · obtain ⟨v', hnext, hflag, hframe⟩ := writesReg_setReg (s.withI (BitVec.ofNat 16 (s.i.toNat + s.v[x].toNat))) 15
      (flagByte (carry16 (s.i.toNat + s.v[x].toNat)))
    exact ⟨v', (congrArg Host.Outcome.next (if_pos hq)).trans hnext, hflag.trans (flagByte_carry16 _), hframe⟩

/-- The index after LDI or LDJ of a block that lies in memory does not wrap (R156). -/
theorem bumpedIndex_toNat {i : Word} {x : RegIdx} (h : i.toNat + x.val < 4096) (quirk : Bool) :
    (if quirk = true then BitVec.ofNat 16 (i.toNat + x.val + 1) else i).toNat =
      if quirk = true then i.toNat + x.val + 1 else i.toNat := by
  cases quirk with
  | false => rfl
  | true => exact Nat.mod_eq_of_lt (Nat.lt_of_le_of_lt h (by decide))

/-! ## Transfers in memory -/

/-- A byte's decimal digits spell it, and each is a digit (R153). -/
theorem bcdDigits_spell (b : Byte) : ∃ hundreds tens ones : Byte, bcdDigits b = [hundreds, tens, ones] ∧
    hundreds.toNat * 100 + tens.toNat * 10 + ones.toNat = b.toNat ∧
    hundreds.toNat ≤ 2 ∧ tens.toNat ≤ 9 ∧ ones.toNat ≤ 9 := by
  have hb := b.isLt
  refine ⟨_, _, _, rfl, ?_⟩
  simp only [BitVec.toNat_ofNat]
  omega

/-- Settles O24: the block LDB writes is the three digits. -/
theorem storeDecimalDigits : Obligations.StoreDecimalDigits := by
  intro x s hin
  obtain ⟨hundreds, tens, ones, hdigits, hspell, hhundreds, htens, hones⟩ := bcdDigits_spell s.v[x]
  have hblock : s.i.toNat + [hundreds, tens, ones].length ≤ Config.memSize := hin
  have read (k : Nat) (hk : k < 3) := Memory.read_writeBlock_add s.mem hblock (k := k) hk
  refine ⟨_, execLdb_stores hin, ?_⟩
  have hread0 := read 0 (by decide)
  rw [Nat.add_zero] at hread0
  rw [hdigits, hread0, read 1 (by decide), read 2 (by decide)]
  exact ⟨hspell, hhundreds, htens, hones, fun a ha => Memory.read_writeBlock_outside s.mem hblock ha⟩

/-- The block of registers that LDI stores ends where its last address lies (R154). -/
theorem State.regBlock_in_memory {s : State} {x : RegIdx} (h : s.i.toNat + x.val < 4096) :
    s.i.toNat + (s.regBlock x).length ≤ Config.memSize := by
  rw [State.length_regBlock]
  exact h

/-- After a store of `V[0]`..`V[x]` that lies in memory, each register's byte is at its offset from `I` (R154). -/
theorem State.read_store_regBlock {s : State} {x r : RegIdx} (h : s.i.toNat + x.val < 4096) (hr : r.val ≤ x.val) :
    (Memory.writeBlock s.i.toNat (s.regBlock x) s.mem).read (s.i.toNat + r.val) = s.v[r] := by
  have hlt : r.val < (s.regBlock x).length := s.length_regBlock x ▸ Nat.lt_succ_of_le hr
  rw [Memory.read_writeBlock_add s.mem (s.regBlock_in_memory h) hlt, State.getElem_regBlock]

/-- After a load of `V[0]`..`V[x]` that lies in memory, each of them is the byte at its offset from `I` (R155). -/
theorem getElem_loadedRegs_in_memory {s : State} {x r : RegIdx} (h : s.i.toNat + x.val < 4096) (hr : r.val ≤ x.val) :
    (loadedRegs s (fun _ => true) s.i.toNat x)[r] = s.mem.read (s.i.toNat + r.val) := by
  rw [getElem_loadedRegs, if_pos ⟨hr, Nat.lt_of_le_of_lt (Nat.add_le_add_left hr _) h, rfl⟩]

/-- Settles O25: the block LDI writes is the registers, and what the quirk adds to `I` does not wrap. -/
theorem storeRegisterBlock : Obligations.StoreRegisterBlock := by
  intro x s hin
  refine ⟨_, _, execLdi_stores hin, bumpedIndex_toNat hin _, fun r hr => s.read_store_regBlock hin hr, fun b hb => ?_⟩
  apply Memory.read_writeBlock_outside s.mem (s.regBlock_in_memory hin)
  rwa [State.length_regBlock]

/-- Settles O26: a register up to `V[x]` is loaded, and one past it is not. -/
theorem loadRegisterBlock : Obligations.LoadRegisterBlock := by
  intro x s hin
  refine ⟨_, _, execLdj_loads hin, bumpedIndex_toNat hin _, fun r hr => getElem_loadedRegs_in_memory hin hr,
    fun r hr => ?_⟩
  rw [getElem_loadedRegs, if_neg fun hload => Nat.not_le_of_lt hr hload.1]

/-- Settles O29: LDJ reads each register's byte where LDI put it. -/
theorem loadBlockReadsBackStoredBlock : Obligations.LoadBlockReadsBackStoredBlock := by
  intro x s t u w hin hstore hi hmem hload r hr
  have hin' : u.i.toNat + x.val < 4096 := hi ▸ hin
  obtain rfl := Host.Outcome.next.inj ((execLdi_stores hin).symm.trans hstore)
  obtain rfl := Host.Outcome.next.inj ((execLdj_loads hin').symm.trans hload)
  calc (loadedRegs u (fun _ => true) u.i.toNat x)[r]
      = u.mem.read (u.i.toNat + r.val) := getElem_loadedRegs_in_memory hin' hr
    _ = (Memory.writeBlock s.i.toNat (s.regBlock x) s.mem).read (s.i.toNat + r.val) := by rw [hi, hmem]
    _ = s.v[r] := s.read_store_regBlock hin hr

/-! ## Transfers that fault -/

/-- A block write, whichever of its bytes land, leaves the old byte at an address or the block's byte there (U5, log 13). -/
theorem Memory.read_writeWhere_old_or_new (lands : Nat → Bool) (base : Nat) (bs : List Byte) (m : Memory) (a : Nat) :
    (Memory.writeWhere lands base bs m).read a = m.read a ∨
      base ≤ a ∧ a < 4096 ∧
        ∃ h : a - base < bs.length, (Memory.writeWhere lands base bs m).read a = bs[a - base] := by
  rw [Memory.read_writeWhere]
  split
  · next hblock =>
    split
    · next hin => exact .inr ⟨hblock.1, hin.1, hblock.2, rfl⟩
    · exact .inl rfl
  · exact .inl rfl

/-- The two digits that a faulting LDB can reach, by offset (R153). -/
theorem getElem_bcdDigits {b : Byte} {k : Nat} (h : k < (bcdDigits b).length) (hk : k < 2) :
    (bcdDigits b)[k] = BitVec.ofNat 8 (if k = 0 then b.toNat / 100 else b.toNat / 10 % 10) := by
  match k, hk with
  | 0, _ => rfl
  | 1, _ => rfl

/-- Settles O27: at the addresses in memory the block's bytes are the digits before the last, or the registers by offset. -/
theorem faultingStoresRaiseAtTheFirstAddress : Obligations.FaultingStoresRaiseAtTheFirstAddress := by
  intro x s
  refine ⟨fun hout => ⟨_, execLdb_faults hout, fun a => ?_⟩, fun hout => ⟨_, execLdi_faults hout, fun a => ?_⟩⟩
  · refine (Memory.read_writeWhere_old_or_new ..).imp_right fun ⟨hle, hlt, hidx, hread⟩ => ⟨hle, hlt, ?_⟩
    have hfirst : a - s.i.toNat = 0 ↔ a = s.i.toNat := by omega
    rw [hread, getElem_bcdDigits hidx (by omega)]
    simp only [hfirst]
  · refine (Memory.read_writeWhere_old_or_new ..).imp_right fun ⟨hle, hlt, hidx, hread⟩ => ⟨hle, hlt, ?_⟩
    have hreg : a - s.i.toNat < 16 := Nat.lt_of_lt_of_le hidx (s.length_regBlock x ▸ x.isLt)
    exact ⟨⟨a - s.i.toNat, hreg⟩, rfl, hread.trans (s.getElem_regBlock x ⟨_, hreg⟩ hidx)⟩

/-- Settles O28: a register is loaded only when its address lies in memory, whether or not the load lands. -/
theorem faultingLoadRaisesAtTheFirstAddress : Obligations.FaultingLoadRaisesAtTheFirstAddress := by
  intro x s hout
  refine ⟨_, execLdj_faults hout, fun r => ?_⟩
  rw [getElem_loadedRegs]
  split
  · next hload => exact .inr ⟨hload.1, hload.2.1, rfl⟩
  · exact .inl rfl

end Sys2Proof.Machine
end

section
/-! The display and its sprites (spec 45_display.md R170 to R181): a drawn sprite flips exactly the pixels under its 1 bits,
each once, and everything DRW leaves behind follows from that. -/

namespace Sys2Proof.Machine

/-! ## The rows of a sprite -/

/-- A 1 bit of a sprite row drawn from column `ox` falls on the column `cx` (R173, R175). -/
def RowLights (ox : Nat) (byte : Byte) (cx : Fin 64) : Prop :=
  ∃ col < 8, (ox + col) % 64 = cx.val ∧ spriteBit byte col = true

/-- A 1 bit of one of the rows `bytes`, drawn from (`ox`, `yy`) down and not clipped, falls on (`cx`, `cy`) (R173, R174). -/
def RowsLight (wrap : Bool) (ox yy : Nat) (bytes : List Byte) (cx : Fin 64) (cy : Fin 32) : Prop :=
  ∃ row byte, bytes[row]? = some byte ∧ (wrap = true ∨ yy + row < 32) ∧ (yy + row) % 32 = cy.val ∧ RowLights ox byte cx

theorem rowsLight_nil {wrap : Bool} {ox yy : Nat} {cx : Fin 64} {cy : Fin 32} : ¬ RowsLight wrap ox yy [] cx cy := by
  rintro ⟨row, byte, hrow, -⟩
  cases hrow

/-- The first row lights what it does where it is not clipped, and the others light what they do one row further down. -/
theorem rowsLight_cons {wrap : Bool} {ox yy : Nat} {byte : Byte} {rest : List Byte} {cx : Fin 64} {cy : Fin 32} :
    RowsLight wrap ox yy (byte :: rest) cx cy ↔
      ((wrap = true ∨ yy < 32) ∧ cy = wrapRow yy ∧ RowLights ox byte cx) ∨ RowsLight wrap ox (yy + 1) rest cx cy := by
  constructor
  · rintro ⟨row, b, hb, hclip, hcy, hlit⟩
    cases row with
    | zero => cases hb; exact .inl ⟨hclip, Fin.ext hcy.symm, hlit⟩
    | succ row => rw [← Nat.succ_add_eq_add_succ] at hclip hcy; exact .inr ⟨row, b, hb, hclip, hcy, hlit⟩
  · rintro (⟨hclip, rfl, hlit⟩ | ⟨row, b, hb, hclip, hcy, hlit⟩)
    · exact ⟨0, byte, rfl, hclip, rfl, hlit⟩
    · rw [Nat.succ_add_eq_add_succ] at hclip hcy
      exact ⟨row + 1, b, hb, hclip, hcy, hlit⟩

/-- From a row at or past the bottom edge down, nothing is drawn with vertical wrap off (R174). -/
theorem not_rowsLight_clipped {wrap : Bool} {ox yy : Nat} {bytes : List Byte} {cx : Fin 64} {cy : Fin 32}
    (h : 32 ≤ yy ∧ wrap = false) : ¬ RowsLight wrap ox yy bytes cx cy := by
  rintro ⟨row, byte, -, hclip | hclip, -⟩
  · rw [h.2] at hclip; cases hclip
  · omega

/-- Fewer than 32 further rows never come back to the row drawn before them (R181). -/
theorem not_rowsLight_wrapRow {wrap : Bool} {ox yy : Nat} {bytes : List Byte} {cx : Fin 64} (h : bytes.length < 32) :
    ¬ RowsLight wrap ox (yy + 1) bytes cx (wrapRow yy) := by
  rintro ⟨row, byte, hrow, -, hcy, -⟩
  have hlt : row < bytes.length := (List.getElem?_eq_some_iff.1 hrow).1
  change (yy + 1 + row) % 32 = yy % 32 at hcy
  omega

/-- At most 32 rows of a sprite flip the pixels under their 1 bits, each once (R173, R181). -/
theorem Blit.flips_drawRows (wrap : Bool) (ox yy : Nat) (bytes : List Byte) (b : Blit) (h : bytes.length ≤ 32) :
    b.Flips (drawRows wrap ox yy bytes b) (RowsLight wrap ox yy bytes) := by
  induction bytes generalizing yy b with
  | nil => exact (Blit.Flips.none b).congr fun _ _ => iff_of_false id rowsLight_nil
  | cons byte rest ih =>
    unfold drawRows
    split
    · next hclip => exact (Blit.Flips.none b).congr fun _ _ => iff_of_false id (not_rowsLight_clipped hclip)
    · next hdrawn =>
      have hdrawn : wrap = true ∨ yy < 32 := by
        cases wrap
        · exact .inr (Nat.lt_of_not_le fun hle => hdrawn ⟨hle, rfl⟩)
        · exact .inl rfl
      refine ((b.flips_drawRow ox (wrapRow yy) byte).trans (ih (yy + 1) _ (Nat.le_of_lt h)) ?_).congr fun cx cy => ?_
      · rintro cx _ ⟨rfl, -⟩
        exact not_rowsLight_wrapRow h
      · rw [rowsLight_cons, and_iff_right hdrawn]
        rfl

/-! ## DRW -/

/-- The rows DRW reads are the `n` bytes at `I`, so the pixels they light are those of the sprite (R172). -/
theorem rowsLight_readBlock {s : State} {x y : RegIdx} {n : Fin 16} {cx : Fin 64} {cy : Fin 32} :
    RowsLight s.settings.verticalWrap s.v[x].toNat s.v[y].toNat (s.mem.readBlock s.i.toNat n.val) cx cy ↔
      SpriteLights s x y n cx cy := by
  have hrow (row : Nat) (byte : Byte) : (s.mem.readBlock s.i.toNat n.val)[row]? = some byte ↔
      row < n.val ∧ s.mem.read (s.i.toNat + row) = byte := by
    simp only [List.getElem?_eq_some_iff, Memory.length_readBlock, Memory.getElem_readBlock, exists_prop]
  constructor
  · rintro ⟨row, byte, hb, hclip, hcy, col, hcol, hcx, hbit⟩
    obtain ⟨hlt, rfl⟩ := (hrow row byte).1 hb
    exact ⟨row, col, hlt, hcol, hclip, hcx, hcy, hbit⟩
  · rintro ⟨row, col, hlt, hcol, hclip, hcx, hcy, hbit⟩
    exact ⟨row, _, (hrow row _).2 ⟨hlt, rfl⟩, hclip, hcy, col, hcol, hcx, hbit⟩

/-- DRW whose rows lie in memory flips the pixels its sprite lights, then writes VF (R172, R178). -/
theorem execDrw_draws {x y : RegIdx} {n : Fin 16} {s : State} (h : n.val = 0 ∨ s.i.toNat + n.val ≤ 4096) :
    ∃ b : Blit, Blit.Flips ⟨s.pix, s.dirty, false⟩ b (SpriteLights s x y n) ∧
      execDrw x y n s = .next (((s.withPix b.pix).withDirty b.dirty).setFlag b.collision) := by
  have hn : firstOutOfBounds s.indexAddr n.val = none := firstOutOfBounds_eq_none.2 h
  have hlen : (s.mem.readBlock s.i.toNat n.val).length ≤ 32 := by rw [Memory.length_readBlock]; omega
  have flips := Blit.flips_drawRows s.settings.verticalWrap s.v[x].toNat s.v[y].toNat _ ⟨s.pix, s.dirty, false⟩ hlen
  refine ⟨_, flips.congr fun _ _ => rowsLight_readBlock, ?_⟩
  rw [execDrw, hn]
  rfl

/-- DRW with a row outside memory raises at the first such address, before it draws (R172, R180). -/
theorem execDrw_faults {x y : RegIdx} {n : Fin 16} {s : State} (h0 : 0 < n.val) (h : 4096 < s.i.toNat + n.val) :
    execDrw x y n s = .next (s.raise (.memoryOutOfBounds (max s.i.toNat 4096))) := by
  have hn : firstOutOfBounds s.indexAddr n.val = some (max s.i.toNat 4096) := firstOutOfBounds_eq_some h0 h
  rw [execDrw, hn]

theorem flagByte_eq_one_or_zero (f : Bool) : flagByte f = 1 ∨ flagByte f = 0 := by
  cases f
  · exact .inr rfl
  · exact .inl rfl

/-- Settles O31: DRW is the flips of its sprite's pixels from a state with no collision, and one write of VF. -/
theorem drawXorsTheSprite : Obligations.DrawXorsTheSprite := by
  intro x y n s hin
  obtain ⟨b, flips, hdrw⟩ := execDrw_draws (x := x) (y := y) hin
  obtain ⟨v', hnext, hvf, hframe⟩ :=
    writesReg_setReg ((s.withPix b.pix).withDirty b.dirty) 15 (flagByte b.collision)
  refine ⟨v', b.pix, b.dirty, hdrw.trans hnext, flips.on_lit, flips.off_lit, flips.dirty_iff, ?_, ?_, hframe⟩
  · rw [hvf]
    exact flagByte_eq_one_or_zero b.collision
  · rw [hvf, flagByte_eq_one, flips.collision_iff]
    exact or_iff_right Bool.false_ne_true

/-- Settles O32: the rows are read before the blit. -/
theorem drawOutsideMemoryChangesNothing : Obligations.DrawOutsideMemoryChangesNothing :=
  fun _ _ _ _ h0 hout => execDrw_faults h0 hout

/-! ## Drawing twice -/

theorem Grid.ext_get {g h : Grid} (hget : ∀ cx cy, g.get cx cy = h.get cx cy) : g = h :=
  Vector.ext fun cx hx => Vector.ext fun cy hy => hget ⟨cx, hx⟩ ⟨cy, hy⟩

/-- What a sprite lights depends on the coordinates, `I`, memory and the settings only (R172, R173). -/
theorem spriteLights_congr {s t : State} {x y : RegIdx} {n : Fin 16} {cx : Fin 64} {cy : Fin 32}
    (hx : t.v[x] = s.v[x]) (hy : t.v[y] = s.v[y]) (hi : t.i = s.i) (hmem : t.mem = s.mem)
    (hset : t.settings = s.settings) : SpriteLights t x y n cx cy ↔ SpriteLights s x y n cx cy := by
  simp only [SpriteLights, hx, hy, hi, hmem, hset]

/-- Settles O33: the first draw leaves the coordinates, `I` and memory, so the second flips the same pixels back. -/
theorem drawingTwiceRestoresThePixels : Obligations.DrawingTwiceRestoresThePixels := by
  intro x y n s t u hx hy hin hfirst hsecond
  obtain ⟨v₁, g₁, d₁, hdrw₁, hon₁, hoff₁, -, -, -, hframe⟩ := drawXorsTheSprite x y n s hin
  obtain rfl := Host.Outcome.next.inj (hdrw₁.symm.trans hfirst)
  obtain ⟨v₂, g₂, d₂, hdrw₂, hon₂, hoff₂, -⟩ := drawXorsTheSprite x y n { s with v := v₁, pix := g₁, dirty := d₁ } hin
  obtain rfl := Host.Outcome.next.inj (hdrw₂.symm.trans hsecond)
  have same (cx : Fin 64) (cy : Fin 32) :
      SpriteLights { s with v := v₁, pix := g₁, dirty := d₁ } x y n cx cy ↔ SpriteLights s x y n cx cy :=
    spriteLights_congr (hframe x hx) (hframe y hy) rfl rfl rfl
  refine Grid.ext_get fun cx cy => ?_
  by_cases hlit : SpriteLights s x y n cx cy
  · calc g₂[cx][cy] = !g₁[cx][cy] := hon₂ cx cy ((same cx cy).2 hlit)
      _ = !!s.pix[cx][cy] := congrArg not (hon₁ cx cy hlit)
      _ = s.pix[cx][cy] := Bool.not_not _
  · calc g₂[cx][cy] = g₁[cx][cy] := hoff₂ cx cy (mt (same cx cy).1 hlit)
      _ = s.pix[cx][cy] := hoff₁ cx cy hlit

/-! ## CLS -/

theorem getElem_blankGrid (cx : Fin 64) (cy : Fin 32) : blankGrid[cx][cy] = false := by
  simp [blankGrid]

/-- Settles O30: the grid CLS leaves is blank. -/
theorem clearTurnsEveryPixelOff : Obligations.ClearTurnsEveryPixelOff :=
  fun _ => ⟨rfl, blankGrid, rfl, getElem_blankGrid⟩

end Sys2Proof.Machine
end

section
/-! The dirty flag along a step (spec 45_display.md R179, R186): an instruction sets it or leaves it, and only the flush
clears it. -/

namespace Sys2Proof.Machine

/-- `Dirty` is not cleared from `s` to `t`. -/
def State.KeepsDirty (s t : State) : Prop := s.dirty = true → t.dirty = true

theorem State.KeepsDirty.of_eq {s t : State} (h : t.dirty = s.dirty) : s.KeepsDirty t := h.trans

theorem State.skipOnKey_keepsDirty (s : State) (x : RegIdx) (down : Bool) : s.KeepsDirty (s.skipOnKey x down) := by
  rcases s.skipOnKey_cases x down with ⟨c, hc⟩ | ⟨f, hf⟩
  · rw [hc, State.skipIf_eq]; exact id
  · rw [hf]; exact id

/-- DRW raises, or its flips can only set `Dirty` (R179). -/
theorem execDrw_keepsDirty {x y : RegIdx} {n : Fin 16} {s t : State} (h : execDrw x y n s = .next t) :
    s.KeepsDirty t := by
  by_cases hin : n.val = 0 ∨ s.i.toNat + n.val ≤ 4096
  · obtain ⟨b, flips, hdrw⟩ := execDrw_draws (x := x) (y := y) hin
    obtain rfl := Host.Outcome.next.inj (hdrw.symm.trans h)
    exact fun hd => flips.dirty_iff.2 (.inl hd)
  · rw [execDrw_faults (by omega) (by omega)] at h
    cases h
    exact id

/-- No instruction clears `Dirty` (R179). -/
theorem exec_keepsDirty {i : Instr} {s t : State} (h : exec i s = .next t) : s.KeepsDirty t := by
  cases i
  case cls => cases h; exact fun _ => rfl
  case drw => exact execDrw_keepsDirty h
  case skp | sknp => cases h; exact s.skipOnKey_keepsDirty _ _
  case seImm | sneImm | seReg | sneReg => cases h; rw [State.skipIf_eq]; exact id
  case ldk => rcases execLdk_cases h with ⟨k, rfl⟩ | rfl <;> exact id
  case call | ret =>
    simp only [exec, execCall, execRet] at h
    split_ifs at h <;> cases h <;> exact id
  case ldb | ldi | ldj =>
    simp only [exec, execLdb, execLdi, execLdj, State.bumpIndex_eq] at h
    split at h <;> cases h <;> exact id
  case sys | addi => cases h; split <;> exact id
  all_goals cases h; exact id

/-- A step clears `Dirty` only when it is the flush (R184, R186). -/
theorem step_flushes_or_keepsDirty {s t : State} (h : step s = .next t) : s.Delivers .flush ∨ s.KeepsDirty t := by
  obtain ⟨-, hcycle | rfl | rfl | ⟨k, -, rfl⟩ | ⟨k, -, rfl⟩ | ⟨hflush, -⟩ | rfl | rfl⟩ := step_cases h
  · rcases cycle_cases hcycle with ⟨f, rfl⟩ | ⟨w, i, -, -, hexec⟩
    · exact .inr (.of_eq s.takeEvent_dirty)
    · exact .inr fun hd => exec_keepsDirty hexec (s.takeEvent_dirty.trans hd)
  · exact .inr (.of_eq s.takeEvent_dirty)
  · exact .inr (.of_eq s.takeEvent_dirty)
  · rw [State.keyDown_eq]; exact .inr (.of_eq s.takeEvent_dirty)
  · rw [State.keyUp_eq]; exact .inr (.of_eq s.takeEvent_dirty)
  · exact .inl hflush
  · exact .inr (.of_eq s.takeEvent_dirty)
  · exact .inr (.of_eq rfl)

/-- Settles O35: the flush is `take_dirty`, and a step that is no flush keeps a set `Dirty`. -/
theorem onlyTheFlushClearsDirty : Obligations.OnlyTheFlushClearsDirty := by
  refine ⟨fun s => rfl, fun s hrun hflush => step_of_event hrun hflush (by simp), fun s t h hset hcleared => ?_⟩
  refine (step_flushes_or_keepsDirty h).resolve_right fun keeps => ?_
  exact Bool.false_ne_true (hcleared.symm.trans (keeps hset))

end Sys2Proof.Machine
end

section
/-! The keyboard and the timers' registers (spec 46_keyboard_timers.md R190 to R202): a key event is one write of the key table
and a decision on the latch, and each instruction of the family reads one key, one latch or one timer. -/

namespace Sys2Proof.Machine

/-! ## The key skips -/

theorem State.skipOnKey_named {s : State} {x : RegIdx} (h : s.v[x].toNat < 16) (down : Bool) :
    s.skipOnKey x down = { s with pc := if s.key[s.v[x].toNat] = down then s.pc + 2 else s.pc } := by
  have hskip : s.skipOnKey x down = s.skipIf (s.key[s.v[x].toNat] == down) := dif_pos h
  simp only [hskip, State.skipIf_eq, beq_iff_eq]

theorem State.skipOnKey_unnamed {s : State} {x : RegIdx} (h : 16 ≤ s.v[x].toNat) (down : Bool) :
    s.skipOnKey x down = s.raise (.keyIndexOutOfRange s.v[x]) :=
  dif_neg (Nat.not_lt.2 h)

theorem exec_skp_named {x : RegIdx} {s : State} (h : s.v[x].toNat < 16) :
    exec (.skp x) s = .next { s with pc := if s.key[s.v[x].toNat] = true then s.pc + 2 else s.pc } :=
  congrArg Host.Outcome.next (State.skipOnKey_named h true)

/-- SKNP is SKP with the branches exchanged (R197). -/
theorem exec_sknp_named {x : RegIdx} {s : State} (h : s.v[x].toNat < 16) :
    exec (.sknp x) s = .next { s with pc := if s.key[s.v[x].toNat] = true then s.pc else s.pc + 2 } := by
  rw [exec, execSknp, State.skipOnKey_named h]
  cases s.key[s.v[x].toNat] <;> rfl

/-- Settles O36: both skips look up the same key, or raise on the same value before they look. -/
theorem keySkipsReadTheNamedKey : Obligations.KeySkipsReadTheNamedKey := fun _ _ =>
  ⟨fun h => ⟨exec_skp_named h, exec_sknp_named h⟩,
    fun h => ⟨congrArg Host.Outcome.next (State.skipOnKey_unnamed h true),
      congrArg Host.Outcome.next (State.skipOnKey_unnamed h false)⟩⟩

/-! ## Timer access and the key wait -/

/-- Format XKK with the family nibble and the function byte first (R72). -/
theorem packXKK_eq (op : Nat) (x : RegIdx) (kk : Byte) :
    packXKK op x kk = BitVec.ofNat 16 (op * 0x1000 + kk.toNat + x.val * 0x100) :=
  congrArg (BitVec.ofNat 16) (Nat.add_right_comm ..)

/-- Settles O37: LDT is one register write, LDF and LDS one timer write each, and the low byte of each word is its function. -/
theorem timerAccessMovesTheByte : Obligations.TimerAccessMovesTheByte := fun x s =>
  ⟨packXKK_eq 0xF x 0x07, writesReg_setReg s x s.dt, packXKK_eq 0xF x 0x15, rfl, packXKK_eq 0xF x 0x18, rfl⟩

/-- A key's number fits in a register (R202). -/
theorem keyByte_toNat (k : KeyIdx) : (BitVec.ofNat 8 k.val).toNat = k.val :=
  Nat.mod_eq_of_lt (Nat.lt_trans k.isLt (by decide))

/-- Settles O38: a captured key is consumed; any other latch is armed, and `pc` goes back over the cycle's advance. -/
theorem keyWaitCompletesOrStalls : Obligations.KeyWaitCompletesOrStalls := by
  refine fun x s => ⟨fun k hk => ⟨_, execLdk_captured hk, ?_, fun r hr => ?_⟩, fun h => execLdk_stalls fun k hk => ?_⟩
  · rw [getElem_setReg, if_pos rfl, keyByte_toNat]
  · rw [getElem_setReg, if_neg hr]
  · rcases h with hnone | harmed
    · cases hnone.symm.trans hk
    · cases harmed.symm.trans hk

/-! ## The key events -/

/-- A key table set at one key reads the new position there and the old one elsewhere (R35). -/
theorem getElem_setKey (key : Vector Bool 16) (k : KeyIdx) (b : Bool) :
    (key.set k b)[k] = b ∧ ∀ j : KeyIdx, j ≠ k → (key.set k b)[j] = key[j] :=
  ⟨Vector.getElem_set_self _, fun _ hj => Vector.getElem_set_ne _ _ (Fin.val_ne_of_ne hj.symm)⟩

/-- Settles O39: the event is `key_down` on the state that took it. -/
theorem keyDownCapturesTheFirstKey : Obligations.KeyDownCapturesTheFirstKey := by
  refine fun s k hrun hevent => ⟨s.key.set k true, ?_, getElem_setKey s.key k true⟩
  rw [step_of_event hrun hevent (by simp), deliver, State.keyDown_eq, State.takeEvent_key, State.takeEvent_wait]

/-- Settles O40: the event is `key_up` on the state that took it. -/
theorem keyUpCancelsItsCapture : Obligations.KeyUpCancelsItsCapture := by
  refine fun s k hrun hevent => ⟨s.key.set k false, ?_, getElem_setKey s.key k false⟩
  rw [step_of_event hrun hevent (by simp), deliver, State.keyUp_eq, State.takeEvent_key, State.takeEvent_wait]

end Sys2Proof.Machine
end

section
/-! The clock divider and the timer ticks (spec 60_exceptions.md R222 to R229): a poll is one comparison, a list of polls is an
induction over it, and a fire of a timer's clock is one tick on the state that took the event. -/

namespace Sys2Proof.Machine

/-! ## The clock divider -/

theorem Clock.due_iff {c : Clock} {now : Nat} : c.due now = true ↔ c.period ≤ now - c.last := decide_eq_true_iff

theorem Clock.tick_of_elapsed {c : Clock} {now : Nat} (h : c.period ≤ now - c.last) : c.tick now = (true, c.advance) :=
  if_pos (Clock.due_iff.2 h)

theorem Clock.tick_of_not_elapsed {c : Clock} {now : Nat} (h : ¬ c.period ≤ now - c.last) : c.tick now = (false, c) :=
  if_neg (mt Clock.due_iff.1 h)

/-- Settles O43: a poll compares once, and a fire is `Clock.advance`. -/
theorem clockTickAdvancesByOnePeriod : Obligations.ClockTickAdvancesByOnePeriod := fun _ _ =>
  ⟨Clock.tick_of_elapsed, Clock.tick_of_not_elapsed⟩

/-- A first poll that fires counts one, and the other polls start from the advanced clock. -/
theorem Clock.pollAll_cons_of_elapsed {c : Clock} {now : Nat} (rest : List Nat) (h : c.period ≤ now - c.last) :
    c.pollAll (now :: rest) = ((c.advance.pollAll rest).1 + 1, (c.advance.pollAll rest).2) := by
  simp only [Clock.pollAll, Clock.tick_of_elapsed h, if_true]

/-- A first poll that does not fire leaves the other polls what they were. -/
theorem Clock.pollAll_cons_of_not_elapsed {c : Clock} {now : Nat} (rest : List Nat) (h : ¬ c.period ≤ now - c.last) :
    c.pollAll (now :: rest) = c.pollAll rest := by
  simp [Clock.pollAll, Clock.tick_of_not_elapsed h]

/-- The recorded instant moves by one period for each fire, and the period stays (R227). -/
theorem Clock.pollAll_clock (c : Clock) (times : List Nat) :
    (c.pollAll times).2 = { c with last := c.last + (c.pollAll times).1 * c.period } := by
  induction times generalizing c with
  | nil => simp [Clock.pollAll]
  | cons now rest ih =>
    by_cases h : c.period ≤ now - c.last
    · have hinstant (fires : Nat) : c.last + c.period + fires * c.period = c.last + (fires + 1) * c.period := by ring
      rw [Clock.pollAll_cons_of_elapsed rest h, ih c.advance]
      exact congrArg (Clock.mk c.period) (hinstant _)
    · rw [Clock.pollAll_cons_of_not_elapsed rest h, ih c]

/-- The periods of all fires together fit between the recorded instant and the last poll (R228). -/
theorem Clock.pollAll_fires_mul_period_le (c : Clock) {times : List Nat} {T : Nat} (hT : ∀ now ∈ times, now ≤ T) :
    (c.pollAll times).1 * c.period ≤ T - c.last := by
  induction times generalizing c with
  | nil => simp [Clock.pollAll]
  | cons now rest ih =>
    obtain ⟨hnow, hrest⟩ := List.forall_mem_cons.1 hT
    by_cases h : c.period ≤ now - c.last
    · have hlater : (c.advance.pollAll rest).1 * c.period ≤ T - (c.last + c.period) := ih c.advance hrest
      rw [Clock.pollAll_cons_of_elapsed rest h, Nat.succ_mul]
      omega
    · rw [Clock.pollAll_cons_of_not_elapsed rest h]
      exact ih c hrest

/-- Settles O44: each fire uses up one period of the time up to `T`, by induction on the polls. -/
theorem clockFiresAtMostOncePerPeriod : Obligations.ClockFiresAtMostOncePerPeriod := fun c times _ hpos hT =>
  ⟨c.pollAll_clock times, (Nat.le_div_iff_mul_le hpos).2 (c.pollAll_fires_mul_period_le hT)⟩

/-! ## The ticks -/

/-- Natural subtraction stops at 0, as the timers do (R30, R31). -/
theorem countDown_toNat (b : Byte) : (countDown b).toNat = b.toNat - 1 := by
  unfold countDown
  split
  · next h => subst h; rfl
  · next h => bv_omega

/-- Settles O41: the fire is `tick_delay` on the state that took it. -/
theorem delayTickCountsDown : Obligations.DelayTickCountsDown := by
  refine fun s hrun hevent => ⟨countDown s.dt, ?_, countDown_toNat s.dt⟩
  rw [step_of_event hrun hevent (by simp), ← s.takeEvent_dt, ← s.takeEvent_delayClock]
  rfl

/-- The boolean a sound tick sends (R223, R224). -/
theorem soundSent_iff (s : State) :
    (s.soundActive && !s.settings.mute) = true ↔ countDown s.st ≠ 0 ∧ s.settings.mute = false := by
  simp [State.soundActive]

/-- Settles O42: the fire is `tick_sound` on the state that took it. -/
theorem soundTickCountsDownAndDrivesTheTone : Obligations.SoundTickCountsDownAndDrivesTheTone := by
  refine fun s hrun hevent => ⟨countDown s.st, s.soundActive && !s.settings.mute, ?_, countDown_toNat s.st, soundSent_iff s⟩
  rw [step_of_event hrun hevent (by simp), State.soundActive, ← s.takeEvent_st, ← s.takeEvent_settings,
    ← s.takeEvent_soundClock]
  rfl

end Sys2Proof.Machine
end

section
/-! The outer loop and the program load (spec 60_exceptions.md R230, R233, 70_reset_and_hazards.md R240 to R242). -/

namespace Sys2Proof.Machine

open Sys2Proof.Config (ClockId)

/-! ## The outer loop -/

theorem deliver_poll_due {c : ClockId} {now : Nat} {s : State} (h : (s.clock c).due now = true) :
    deliver (.poll c now) s = deliver (.fire c) s :=
  if_pos h

theorem deliver_poll_early {c : ClockId} {now : Nat} {s : State} (h : (s.clock c).due now = false) :
    deliver (.poll c now) s = .next s :=
  if_neg (ne_true_of_eq_false h)

/-- A step listed in front is the one delivered, from the state it was listed in (R230, log 9). -/
theorem step_listed {s : State} {e : Config.HostEvent} (hrun : s.Running) (hq : e ≠ .quit) :
    step { s with schedule := e :: s.schedule } = deliver e s :=
  step_of_event (s := { s with schedule := e :: s.schedule }) hrun rfl hq

theorem State.Running.takeEvent {s : State} (h : s.Running) : s.takeEvent.Running := s.takeEvent_fault.trans h

/-- Settles O45: the list's head or the free stream gives the event, and a due poll is delivered as the fire it stands for. -/
theorem outerLoopDeliversEveryInterleaving : Obligations.OuterLoopDeliversEveryInterleaving := by
  refine ⟨fun s e rest => State.nextEvent_cons, fun s => State.nextEvent_nil, fun s hrun => ⟨?due, ?early, ?none, ?quit⟩⟩
  case due =>
    intro c now hpoll hdue
    rw [step_of_event hrun hpoll (by simp), step_listed hrun.takeEvent (by simp)]
    exact deliver_poll_due (by rwa [State.clock_takeEvent])
  case early =>
    intro c now hpoll hearly
    rw [step_of_event hrun hpoll (by simp)]
    exact deliver_poll_early (by rwa [State.clock_takeEvent])
  case none => exact fun hnone => step_of_event hrun hnone (by simp)
  case quit => exact step_of_quit hrun

/-! ## The program load -/

theorem State.load_fits {s : State} {bytes : List Byte} (h : 0x200 + bytes.length ≤ 4096) :
    s.load (some bytes) = s.withMem (Memory.writeBlock 0x200 bytes s.mem) :=
  if_neg (Nat.not_lt.2 h)

theorem State.load_too_large {s : State} {bytes : List Byte} (h : 4096 < 0x200 + bytes.length) :
    s.load (some bytes) = s.raise (.loadTooLarge bytes.length) :=
  if_pos h

/-- A raised fault is latched, so the next step answers it (R216). -/
theorem step_raise (s : State) (f : CoreFault) : step (s.raise f) = .fault (.stopped f) :=
  latchedFaultStopsEveryStep.1 _ f rfl

/-- Settles O46: a program that fits is one block write; otherwise the load raises, and no step runs after that. -/
theorem loadPlacesTheProgramOrIsFatal : Obligations.LoadPlacesTheProgramOrIsFatal := by
  refine fun s bytes => ⟨fun hfit => ?_, fun hlarge => ?_, rfl, step_raise s .loadUnreadable⟩
  · exact ⟨_, State.load_fits hfit, fun k => Memory.read_writeBlock_add s.mem hfit,
      fun a => Memory.read_writeBlock_outside s.mem hfit⟩
  · rw [State.load_too_large hlarge]
    exact ⟨rfl, step_raise s _⟩

end Sys2Proof.Machine
end
